-- ==== Sys2Proof/Word.lean ====
section
/-! DEFINITION. The word types of the block's registers and of the words that reach it (spec/10_state.md
rule R20, spec/30_encoding.md rule R70). Only the types: every operation on them that a test could show
wrong stands in Decode.lean or under Machine/. -/

namespace Sys2Proof

/-- A byte: an interrupt-cause byte (R71), a status-register answer (R55), a staging-buffer byte (R45). -/
abbrev Byte := BitVec 8

/-- A 16-bit register: `inLen`, `inRssi`, `outLen`, and the packet-read length (R20, R56). -/
abbrev Half := BitVec 16

/-- A 32-bit register or the DATA field of a host word (R20, R90). A time value also has this type:
R91 requires `P_TIME_MOD ≤ 2^32`. -/
abbrev Word := BitVec 32

end Sys2Proof
end

