-- ==== Sys2Proof/Syntax.lean ====
section
/-! DEFINITION. The syntax of the machine: the dispatch word's fields, the ONE inductive of its operations
(one constructor per row of spec/opcode_table.json), the closed action vocabulary an operation emits
(spec/30_encoding.md R86 to R88), the anomaly codes (spec/60_exceptions.md R227) and the stimulus
statements (spec/30_encoding.md R97). -/

namespace Sys2Proof

/-- The fields of a dispatch word (30_encoding.md R80). The reserved bits [15:14] are not a field: they
are always 0. The operands of an operation are these latched values (R78). -/
structure Dw where
  /-- bits [7:0], `A`: the active interrupts, latched by the prologue (R79) -/
  active : Byte
  /-- bits [10:8], `S`: the state code (R73) -/
  state : BitVec 3
  /-- bit 11, `H` -/
  hopEn : Bool
  /-- bit 12, `C` -/
  cadEn : Bool
  /-- bit 13, `HS`: the hop-stage bit (R81) -/
  hs : Bool
  /-- bits [19:16], `F`: the SF code (R75) -/
  sf : BitVec 4
deriving DecidableEq, Repr

/-- The operations of the block: one constructor per row of spec/opcode_table.json, in its order. A row
of format DW20 carries the dispatch word that selects it; a host row carries the fields of its host
word that the row does not fix (R90); RESET is a signal and carries nothing (R213). -/
inductive Instr where
  | hopDoneTo (d : Dw)
  | hopEventTo (d : Dw)
  | hopIdle (d : Dw)
  | init (d : Dw)
  | scanDet (d : Dw)
  | scanDone (d : Dw)
  | scanIdle (d : Dw)
  | scanUnk (d : Dw)
  | cadDet (d : Dw)
  | cadStep (d : Dw)
  | cadWrap (d : Dw)
  | cadIdle (d : Dw)
  | cadUnk (d : Dw)
  | rxCrcerr (d : Dw)
  | rxReadfail (d : Dw)
  | rxOk (d : Dw)
  | rxTimeout (d : Dw)
  | rxHdr (d : Dw)
  | rxIdle (d : Dw)
  | rxUnk (d : Dw)
  | tx (d : Dw)
  | txdoneOk (d : Dw)
  | txdoneWait (d : Dw)
  | txdoneUnk (d : Dw)
  | badState (d : Dw)
  | hRead (reg : BitVec 7) (data : Word)
  | hCfgWrite (data : Word)
  | hOutWrite (reg : BitVec 7) (data : Word)
  | hOutPayloadWrite (data : Word)
  | hTxRequest
  | reset
deriving DecidableEq, Repr

/-- The transceiver status registers whose reads are draws (20_memory.md R52, R55). -/
inductive StatusReg where
  | rssi | crcOn | pktSnr | pktRssi | sfCfg
deriving DecidableEq, Repr

/-- The transceiver registers the block touches (20_memory.md R52). -/
inductive RegId where
  | irqFlags | irqMask | status (r : StatusReg)
deriving DecidableEq, Repr

/-- The anomaly codes, the argument of `LOG` (60_exceptions.md R227). -/
inductive LogCode where
  | masked | scanUnknown | cadIdle | cadUnknown | rxCrc | rxReadfail | rxTimeout | rxUnknown
  | txForced | txdoneUnknown | txDeadline | badState | sfUnknown | eventWaitUnknown | parserResult
deriving DecidableEq, Repr

/-- The record DELIVER hands to the frame parser (43_rx.md R174). -/
structure InRecord where
  payload : List Byte
  length : Half
  snr : Byte
  rssi : Half
  sf : BitVec 4
deriving DecidableEq, Repr

/-- The record START_TX hands to the transmit driver (44_tx_txdone.md R194). -/
structure OutRecord where
  payload : List Byte
  length : Half
  timestamp : Word
  sf : BitVec 4
  power : Byte
  freq : Word
  crc : Bool
  iqInvert : Bool
deriving DecidableEq, Repr

/-- The closed action vocabulary (30_encoding.md R86), each action with the result it returned, so that a
list of them is the trace of `(code, arguments, result)` records of R87. -/
inductive Action where
  /-- `RD(r)`, answered `v` -/
  | rd (r : RegId) (v : Byte)
  /-- `READ_PACKET`, answered the signed length `n` and the packet's bytes -/
  | readPacket (n : Half) (bytes : List Byte)
  | clrMask
  | clrFlags (set : Byte)
  | setDio (cfg : Byte)
  | opmodeCad
  | setRate (sf : BitVec 4) (flags : Byte)
  | startRxSingle
  | startRxCont
  | startTx (rec : OutRecord)
  | armScan (channel : Byte) (sf : BitVec 4)
  /-- `DELIVER(rec)`, answered the parser's result `k` -/
  | deliver (rec : InRecord) (k : Int)
  | log (code : LogCode)
  | yield
deriving DecidableEq, Repr

/-- An answer of the transceiver to READ_PACKET: a signed 16-bit length and the packet's bytes (20_memory.md
R56). A byte below the length that `bytes` does not give is an unconstrained draw (30_encoding.md R97). -/
structure PktAnswer where
  n : Half
  bytes : List Byte
deriving DecidableEq, Repr

/-- The stimulus statements (30_encoding.md R97): one step of one agent each. `raiseDuring` is the model's
own: it lists the radio steps of 20_memory.md R58 that fall between the actions of the operations to
come, one set of flag bits before each action (assumption log 10). `sink` is the model's own too: the
step of the log sink, the seventh agent of 00_scope.md R7 (assumption log 17). -/
inductive Stimulus where
  /-- `RESET`: the reset signal (R213) -/
  | reset
  /-- `HW`, `HR`, `HWB`, `HRB`: one 40-bit host word (R90) -/
  | host (word : BitVec 40)
  /-- `RADIO <bits>` / `IRQ <bits>`: the radio raises flags (R53) -/
  | radio (bits : Byte)
  /-- radio steps between the actions of later operations (R58) -/
  | raiseDuring (sets : List Byte)
  /-- `SETMASK <byte>`: the driver leaves IRQ_MASK at this value (R54) -/
  | setMask (mask : Byte)
  /-- `TIME <t>`: `Now()` returns `t` from here on (R242) -/
  | time (t : Nat)
  /-- `ANSWER <R>=<v>` -/
  | answer (r : StatusReg) (v : Byte)
  /-- `ANSWER PKT n=<n> bytes=…` -/
  | answerPkt (p : PktAnswer)
  /-- `ANSWER PARSER=<k>` -/
  | answerParser (k : Int)
  /-- the log sink takes the `i`-th record on its way to it, and keeps or drops it (60_exceptions.md R252,
  93_implementation_defined.md U13) -/
  | sink (i : Nat) (keep : Bool)
  /-- `INVOKE`: one invocation (40_classifier.md R100) -/
  | invoke
deriving DecidableEq, Repr

end Sys2Proof
end

