-- ==== Sys2Proof/Config.lean ====
section
/-! DEFINITION. The implementation parameters (spec/00_scope.md R9 to R17) and the transceiver model's
parameters (spec/20_memory.md R53, R54, R59) as one record of plain data, and the free values: opaque
constants with no body, applied to a counter (assumption log 6). "The model takes every parameter below as an argument":
the record stands in State, no step writes it, and a claim about every state is a claim about every
value of every parameter. -/

namespace Sys2Proof

/-- `P_SNR_ROUND` (R17): how a negative raw SNR is scaled. -/
inductive SnrRound where
  | floor | trunc
deriving DecidableEq, Repr, Inhabited

/-- What a driver primitive does to IRQ_MASK (20_memory.md R54): it leaves it unchanged
(70_reset_and_hazards.md R282), or leaves any value (a draw). -/
inductive DriverMask where
  | unchanged | anyValue
deriving DecidableEq, Repr, Inhabited

/-- `X_PRIMITIVE_CLEARS` (20_memory.md R53): for each driver primitive, the IRQ_FLAGS bits it clears. R53 calls
it "a function from action to the set of flag bits it clears" and does not say whether an action's arguments
count. DESIGN CHOICE, unsafe (assumption log 11): one set for each primitive whatever its arguments, and none
for CLR_MASK and the other actions that are no driver primitive. -/
structure PrimitiveClears where
  readPacket : Byte := 0
  setDio : Byte := 0
  opmodeCad : Byte := 0
  setRate : Byte := 0
  startRxSingle : Byte := 0
  startRxCont : Byte := 0
  startTx : Byte := 0
  armScan : Byte := 0
deriving DecidableEq, Repr, Inhabited

/-- `X_ADDR` (20_memory.md R59): the transceiver's register addresses. No rule depends on them. No source gives
a value: the 0 a field has where none is written is a placeholder (DESIGN CHOICE, assumption log 2). -/
structure XAddr where
  irqFlags : Byte := 0
  irqMask : Byte := 0
  rssi : Byte := 0
  crcOn : Byte := 0
  pktSnr : Byte := 0
  pktRssi : Byte := 0
  sfCfg : Byte := 0
deriving DecidableEq, Repr, Inhabited

/-- The parameters the model takes as an argument. -/
structure Params where
  /-- `P_EVENT_UNIT`, µs (R9) -/
  eventUnit : Nat
  /-- `P_DONE_BASE`, µs (R10) -/
  doneBase : Nat
  /-- `P_TX_DEADLINE`, µs (R11); stated value 7,000,000 -/
  txDeadline : Nat
  /-- `P_TIME_MOD` (R12) -/
  timeMod : Nat
  /-- `P_RSSI_LIMIT` (R13) -/
  rssiLimit : Byte
  /-- `P_RSSI_LIMIT_HOP` (R13) -/
  rssiLimitHop : Byte
  /-- `P_RSSI_CORR_A` (R14) -/
  rssiCorrA : Int
  /-- `P_RSSI_CORR_B` (R14) -/
  rssiCorrB : Int
  /-- `P_NUM_CHANNELS` (R15) -/
  numChannels : Nat
  /-- `P_CHANNEL_PLAN` (R15): the carrier frequency of each channel. The driver's, which tunes to it when it
  executes ARM_SCAN (30_encoding.md R89); the block never reads it -/
  channelPlan : List Nat
  /-- `P_IN_CAP` (R16); decided value 256 -/
  inCap : Nat
  /-- `P_OUT_CAP` (R16); decided value 256 -/
  outCap : Nat
  /-- `P_CAD_RATE_FLAGS` (R17) -/
  cadRateFlags : Byte
  /-- `P_SNR_ROUND` (R17) -/
  snrRound : SnrRound
  /-- `P_CAD_STEP_CLEAR` (R17) -/
  cadStepClear : Byte
  /-- `P_HOP_EN_RESET` (R17) -/
  hopEnReset : Bool
  /-- `P_CAD_EN_RESET` (R17) -/
  cadEnReset : Bool
  /-- `P_XCVR_MODEL_RESET` (R17) -/
  xcvrModelReset : Bool
  /-- `X_PRIMITIVE_CLEARS` (20_memory.md R53) -/
  clears : PrimitiveClears
  /-- the mask effect of the driver's primitives (20_memory.md R54) -/
  driverMask : DriverMask
  /-- `X_ADDR` (20_memory.md R59) -/
  xAddr : XAddr
deriving DecidableEq, Repr, Inhabited

/-- A correction constant keeps `0 + corr` and `255 + corr` within signed 16 bits (R14). -/
abbrev corrFits (c : Int) : Prop := -32768 ≤ c ∧ c + 255 ≤ 32767

/-- The legal values of the parameters: the constraints of R12 to R16, one carrier for each channel among
them (R15), and `P_TIME_MOD ≤ 2^32`, which 30_encoding.md R91 requires. -/
abbrev Params.legal (p : Params) : Prop :=
  2 ≤ p.timeMod ∧ p.timeMod ≤ 4294967296 ∧
  p.rssiLimitHop.toNat < p.rssiLimit.toNat ∧
  p.rssiCorrA ≠ p.rssiCorrB ∧ corrFits p.rssiCorrA ∧ corrFits p.rssiCorrB ∧
  1 ≤ p.numChannels ∧ p.numChannels ≤ 256 ∧
  1 ≤ p.inCap ∧ p.inCap ≤ 256 ∧ 1 ≤ p.outCap ∧ p.outCap ≤ 256 ∧
  p.channelPlan.length = p.numChannels

/-- `P_CHANNEL_PLAN[ch]`: the carrier the driver tunes the transceiver to on `ARM_SCAN(ch, sf)` (R15,
30_encoding.md R89), where the plan has such a channel. -/
def Params.carrier (p : Params) (ch : Byte) : Option Nat := p.channelPlan[ch.toNat]?

/-- The address `X_ADDR` gives a transceiver register (20_memory.md R59). -/
def Params.addrOf (p : Params) : RegId → Byte
  | .irqFlags => p.xAddr.irqFlags
  | .irqMask => p.xAddr.irqMask
  | .status .rssi => p.xAddr.rssi
  | .status .crcOn => p.xAddr.crcOn
  | .status .pktSnr => p.xAddr.pktSnr
  | .status .pktRssi => p.xAddr.pktRssi
  | .status .sfCfg => p.xAddr.sfCfg

/-- The example parameter set E of 95_test_vectors.md §0: example inputs, not decisions of the spec. E names no
carriers, no register addresses and no reset configuration: the three numbers of the plan, the address 0 of
all seven registers and the three cleared reset bits are placeholders (DESIGN CHOICE, assumption log 2). -/
def exampleParams : Params where
  eventUnit := 20000
  doneBase := 2000
  txDeadline := 7000000
  timeMod := 4294967296
  rssiLimit := 35
  rssiLimitHop := 30
  rssiCorrA := -157
  rssiCorrB := -139
  numChannels := 3
  channelPlan := [0, 1, 2]
  inCap := 256
  outCap := 256
  cadRateFlags := 0
  snrRound := .floor
  cadStepClear := 0
  hopEnReset := false
  cadEnReset := false
  xcvrModelReset := false
  clears := {}
  driverMask := .unchanged
  xAddr := {}

/-- The OPEN parameters of this implementation: no source gives them, and nothing in Lean can know them
(assumption log 2). -/
opaque Config.openParams : Params

/-- The open parameters with the spec's own stated or decided values put in: `P_TX_DEADLINE = 7,000,000`
(R11) and both capacities 256 (R16). -/
def Config.withStated : Params :=
  { Config.openParams with txDeadline := 7000000, inCap := 256, outCap := 256 }

/-- The parameters the machine starts with: open ones, held legal, and the stated values. A choice outside
R12 to R16 is no choice of this hardware; the example set stands in its place, so that every legal choice
and no other is covered. -/
def Config.params : Params :=
  { (if Config.withStated.legal then Config.withStated else exampleParams) with
    txDeadline := 7000000, inCap := 256, outCap := 256 }

/-- A byte the spec leaves free: an unanswered status read (R55), a byte of a failed packet read (R56), a
mask a driver left (R54), an 8-bit register after RESET (R20); its bit 0, the invoker's choice where no
trigger holds (45_host.md R215). -/
opaque Config.freeByte : Nat → Byte

/-- A 16-bit value the spec leaves free: an unanswered packet length (R56), a 16-bit register after RESET. -/
opaque Config.freeHalf : Nat → Half

/-- A 32-bit value the spec leaves free: a timer or a 32-bit register after RESET (R20). -/
opaque Config.freeWord : Nat → Word

/-- The parser's result where no answer is pending (45_host.md R221, 93_implementation_defined.md U12). -/
opaque Config.freeInt : Nat → Int

end Sys2Proof
end

