-- ==== Sys2Proof/Machine/Codes.lean ====
section
/-! DEFINITION. The numbers the spec gives to names: state codes, register ids, anomaly codes, action codes, and
which host register indices may be read and which are outbound metadata. -/

namespace Sys2Proof

/-- The state codes (30_encoding.md R73). -/
abbrev stInit : BitVec 3 := 0
abbrev stScan : BitVec 3 := 1
abbrev stCad : BitVec 3 := 2
abbrev stRx : BitVec 3 := 3
abbrev stTx : BitVec 3 := 4
abbrev stTxDone : BitVec 3 := 5

/-- The register ids of `RD(r)` (30_encoding.md R88). -/
def RegId.id : RegId → Nat
  | .irqFlags => 0
  | .irqMask => 1
  | .status .rssi => 2
  | .status .crcOn => 3
  | .status .pktSnr => 4
  | .status .pktRssi => 5
  | .status .sfCfg => 6

/-- The 8-bit number of an anomaly code (60_exceptions.md R227). -/
def LogCode.code : LogCode → Byte
  | .masked => 0x01
  | .scanUnknown => 0x02
  | .cadIdle => 0x03
  | .cadUnknown => 0x04
  | .rxCrc => 0x05
  | .rxReadfail => 0x06
  | .rxTimeout => 0x07
  | .rxUnknown => 0x08
  | .txForced => 0x09
  | .txdoneUnknown => 0x0A
  | .txDeadline => 0x0B
  | .badState => 0x0C
  | .sfUnknown => 0x0D
  | .eventWaitUnknown => 0x0E
  | .parserResult => 0x0F

/-- The action codes (30_encoding.md R86, R87). -/
def Action.code : Action → Byte
  | .rd _ _ => 0x01
  | .readPacket _ _ => 0x04
  | .clrMask => 0x10
  | .clrFlags _ => 0x11
  | .setDio _ => 0x12
  | .opmodeCad => 0x13
  | .setRate _ _ => 0x14
  | .startRxSingle => 0x15
  | .startRxCont => 0x16
  | .startTx _ => 0x17
  | .armScan _ _ => 0x18
  | .deliver _ _ => 0x20
  | .log _ => 0x21
  | .yield => 0x22

/-- The LOG record an action is, if it is one (60_exceptions.md R229). -/
def Action.logCode? : Action → Option LogCode
  | .log c => some c
  | .rd _ _ | .readPacket _ _ | .clrMask | .clrFlags _ | .setDio _ | .opmodeCad | .setRate _ _
  | .startRxSingle | .startRxCont | .startTx _ | .armScan _ _ | .deliver _ _ | .yield => none

/-- The LOG records of an action list, in its order (60_exceptions.md R229). -/
def logCodes (l : List Action) : List LogCode := l.filterMap Action.logCode?

/-- A host register index that may be read: every index of the map except CMD (30_encoding.md R91,
45_host.md R206). -/
def readableReg (reg : BitVec 7) : Bool :=
  reg.toNat ≤ 0x01 || (0x03 ≤ reg.toNat && reg.toNat ≤ 0x09) || (0x10 ≤ reg.toNat && reg.toNat ≤ 0x13) ||
    (0x18 ≤ reg.toNat && reg.toNat ≤ 0x1D) || reg.toNat == 0x20 || reg.toNat == 0x21

/-- The indices of the outbound metadata registers (45_host.md R208). -/
def outMetaReg (reg : BitVec 7) : Bool := 0x18 ≤ reg.toNat && reg.toNat ≤ 0x1D

end Sys2Proof
end

