-- ==== Sys2Proof/WellFormed.lean ====
section
/-! DEFINITION. Which instructions have an encoding: the row pattern and DW guard of spec/30_encoding.md R83
written over the dispatch word's fields (R84 spells the same split out in words), and the register
indices the host rows admit (R91, R205). -/

namespace Sys2Proof

/-- The operation's fields match its row of the opcode map (30_encoding.md R83). -/
def Instr.wellFormed : Instr → Bool
  | .hopDoneTo d => d.hs
  | .hopEventTo d => d.hs
  | .hopIdle d => d.hs
  | .init d => !d.hs && d.state == stInit
  | .scanDet d => !d.hs && d.state == stScan && d.active[0]
  | .scanDone d => !d.hs && d.state == stScan && !d.active[0] && d.active[2]
  | .scanIdle d => !d.hs && d.state == stScan && d.active == 0
  | .scanUnk d => !d.hs && d.state == stScan && !d.active[0] && !d.active[2] && d.active != 0
  | .cadDet d => !d.hs && d.state == stCad && d.active[0]
  | .cadStep d => !d.hs && d.state == stCad && !d.active[0] && d.active[2] && d.sf.toNat < 12
  | .cadWrap d => !d.hs && d.state == stCad && !d.active[0] && d.active[2] && 12 ≤ d.sf.toNat
  | .cadIdle d => !d.hs && d.state == stCad && d.active == 0
  | .cadUnk d => !d.hs && d.state == stCad && !d.active[0] && !d.active[2] && d.active != 0
  | .rxCrcerr d => !d.hs && d.state == stRx && d.active[6]
  | .rxReadfail d => !d.hs && d.state == stRx && d.active[6]
  | .rxOk d => !d.hs && d.state == stRx && d.active[6]
  | .rxTimeout d => !d.hs && d.state == stRx && !d.active[6] && d.active[7]
  | .rxHdr d => !d.hs && d.state == stRx && d.active == 0x10
  | .rxIdle d => !d.hs && d.state == stRx && d.active == 0
  | .rxUnk d => !d.hs && d.state == stRx && !d.active[6] && !d.active[7] && d.active != 0 && d.active != 0x10
  | .tx d => !d.hs && d.state == stTx
  | .txdoneOk d => !d.hs && d.state == stTxDone && d.active[3]
  | .txdoneWait d => !d.hs && d.state == stTxDone && d.active == 0
  | .txdoneUnk d => !d.hs && d.state == stTxDone && !d.active[3] && d.active != 0
  | .badState d => !d.hs && (d.state == 6 || d.state == 7)
  | .hRead reg _ => readableReg reg
  | .hCfgWrite _ => true
  | .hOutWrite reg _ => outMetaReg reg
  | .hOutPayloadWrite _ => true
  | .hTxRequest => true
  | .reset => true

end Sys2Proof
end

