-- ==== Sys2Proof/Decode.lean ====
section
/-! DEFINITION. The encodings and the decoder (spec/30_encoding.md R80 to R85, R90 to R96), total on every
dispatch word and every host word, rejecting by name; then the encoder. -/

namespace Sys2Proof

/-- An encoded operation: a 20-bit dispatch word (R80), a 40-bit host word (R90), or the reset signal,
which is no word (45_host.md R213). There is no other form (R99). -/
inductive Code where
  | dw (w : BitVec 20)
  | host (w : BitVec 40)
  | resetSignal
deriving DecidableEq, Repr

/-- Why a word is no operation. -/
inductive DecodeError where
  /-- DW bits [15:14] are set: never produced; "a decoder may fault" (R84) -/
  | reservedDw
  /-- no row of the opcode map matches: there is no such DW (R84) -/
  | noRow
  /-- an index not in the register map (R96) -/
  | unmappedIndex
  /-- a write to a read-only register (R96) -/
  | readOnly
  /-- a read of CMD (R94, R96) -/
  | writeOnly
  /-- a reserved CMD value (R94, R96) -/
  | reservedCmd
deriving DecidableEq, Repr

/-- What a word selects (R82): one row, or one group whose late guards read values that are not in the
dispatch word. -/
inductive Selected where
  | row (i : Instr)
  /-- HOP_DONE_TO / HOP_EVENT_TO / HOP_IDLE (41_hopper.md R122) -/
  | hopGroup (d : Dw)
  /-- RX_CRCERR / RX_READFAIL / RX_OK (43_rx.md R162) -/
  | rxDoneGroup (d : Dw)
deriving DecidableEq, Repr

/-- `DW = {sf[3:0], 2'b00, HS, cadEn, hopEn, state[2:0], active[7:0]}` (R80). -/
def Dw.word (d : Dw) : BitVec 20 :=
  d.sf ++ 0#2 ++ BitVec.ofBool d.hs ++ BitVec.ofBool d.cadEn ++ BitVec.ofBool d.hopEn ++ d.state ++ d.active

/-- The fields of a dispatch word (R80). -/
def Dw.ofWord (w : BitVec 20) : Dw where
  active := w.extractLsb' 0 8
  state := w.extractLsb' 8 3
  hopEn := w[11]
  cadEn := w[12]
  hs := w[13]
  sf := w.extractLsb' 16 4

/-- One row (or group) of the opcode map: mask, match, DW guard, and what it selects (R83). -/
structure Row where
  mask : BitVec 20
  pat : BitVec 20
  guard : Dw → Bool
  pick : Dw → Selected

/-- The opcode map in decode order (R83). Rows 1 to 3 and rows 14 to 16 share a pattern and are one
entry each, their group's. -/
def dwRows : List Row := [
  { mask := 0x02000, pat := 0x02000, guard := fun _ => true, pick := .hopGroup },
  { mask := 0x02700, pat := 0x00000, guard := fun _ => true, pick := fun d => .row (.init d) },
  { mask := 0x02701, pat := 0x00101, guard := fun _ => true, pick := fun d => .row (.scanDet d) },
  { mask := 0x02705, pat := 0x00104, guard := fun _ => true, pick := fun d => .row (.scanDone d) },
  { mask := 0x027FF, pat := 0x00100, guard := fun _ => true, pick := fun d => .row (.scanIdle d) },
  { mask := 0x02705, pat := 0x00100, guard := fun d => d.active != 0, pick := fun d => .row (.scanUnk d) },
  { mask := 0x02701, pat := 0x00201, guard := fun _ => true, pick := fun d => .row (.cadDet d) },
  { mask := 0x02705, pat := 0x00204, guard := fun d => d.sf.toNat < 12, pick := fun d => .row (.cadStep d) },
  { mask := 0x02705, pat := 0x00204, guard := fun d => 12 ≤ d.sf.toNat, pick := fun d => .row (.cadWrap d) },
  { mask := 0x027FF, pat := 0x00200, guard := fun _ => true, pick := fun d => .row (.cadIdle d) },
  { mask := 0x02705, pat := 0x00200, guard := fun d => d.active != 0, pick := fun d => .row (.cadUnk d) },
  { mask := 0x02740, pat := 0x00340, guard := fun _ => true, pick := .rxDoneGroup },
  { mask := 0x027C0, pat := 0x00380, guard := fun _ => true, pick := fun d => .row (.rxTimeout d) },
  { mask := 0x027FF, pat := 0x00310, guard := fun _ => true, pick := fun d => .row (.rxHdr d) },
  { mask := 0x027FF, pat := 0x00300, guard := fun _ => true, pick := fun d => .row (.rxIdle d) },
  { mask := 0x027C0, pat := 0x00300, guard := fun d => d.active != 0 && d.active != 0x10,
    pick := fun d => .row (.rxUnk d) },
  { mask := 0x02700, pat := 0x00400, guard := fun _ => true, pick := fun d => .row (.tx d) },
  { mask := 0x02708, pat := 0x00508, guard := fun _ => true, pick := fun d => .row (.txdoneOk d) },
  { mask := 0x027FF, pat := 0x00500, guard := fun _ => true, pick := fun d => .row (.txdoneWait d) },
  { mask := 0x02708, pat := 0x00500, guard := fun d => d.active != 0, pick := fun d => .row (.txdoneUnk d) },
  { mask := 0x02600, pat := 0x00600, guard := fun _ => true, pick := fun d => .row (.badState d) }]

/-- The row's test on a dispatch word: `(DW & mask) == match` and the DW guard (R82). -/
def Row.accepts (r : Row) (w : BitVec 20) : Bool :=
  (w &&& r.mask) == r.pat && r.guard (Dw.ofWord w)

/-- The first row in table order that accepts the dispatch word (R82, R83). -/
def decodeDw (w : BitVec 20) : Except DecodeError Selected :=
  if w.extractLsb' 14 2 != 0 then .error .reservedDw
  else match dwRows.find? (fun r => r.accepts w) with
    | some r => .ok (r.pick (Dw.ofWord w))
    | none => .error .noRow

/-- The `W`, `REG` and `DATA` fields of a host word (R90). -/
def hostW (w : BitVec 40) : Bool := w[39]
def hostReg (w : BitVec 40) : BitVec 7 := w.extractLsb' 32 7
def hostData (w : BitVec 40) : Word := w.extractLsb' 0 32

/-- A host word `{W, REG, DATA}` (R90). -/
def hostWord (write : Bool) (reg : BitVec 7) (data : Word) : BitVec 40 :=
  BitVec.ofBool write ++ reg ++ data

/-- The host transaction a host word names (45_host.md R205), or why it names none (R96, R212). What a
transaction checks in its DATA is the transaction's own (45_host.md R206 to R210). -/
def decodeHost (w : BitVec 40) : Except DecodeError Instr :=
  let reg := hostReg w
  let data := hostData w
  if hostW w then
    if reg == 0x00 then .ok (.hCfgWrite data)
    else if outMetaReg reg then .ok (.hOutWrite reg data)
    else if reg == 0x20 then .ok (.hOutPayloadWrite data)
    else if reg == 0x02 then (if data == 1 then .ok .hTxRequest else .error .reservedCmd)
    else if readableReg reg then .error .readOnly
    else .error .unmappedIndex
  else if readableReg reg then .ok (.hRead reg data)
  else if reg == 0x02 then .error .writeOnly
  else .error .unmappedIndex

/-- What an encoded operation selects. -/
def decode : Code → Except DecodeError Selected
  | .dw w => decodeDw w
  | .host w => (decodeHost w).map .row
  | .resetSignal => .ok (.row .reset)

/-- What the decoding of an operation's own code selects: its row, or the group it is a row of (R82). -/
def Instr.selected : Instr → Selected
  | .hopDoneTo d => .hopGroup d
  | .hopEventTo d => .hopGroup d
  | .hopIdle d => .hopGroup d
  | .rxCrcerr d => .rxDoneGroup d
  | .rxReadfail d => .rxDoneGroup d
  | .rxOk d => .rxDoneGroup d
  | i => .row i

/-- The row a code names where no state is at hand to evaluate late guards: the row of the group that runs
where `withFetchWord` places its word, no budget run out, CRC checking on and a one-byte packet
(assumption log 8). -/
def Selected.placedRow : Selected → Instr
  | .row i => i
  | .hopGroup d => .hopIdle d
  | .rxDoneGroup d => if d.active[5] then .rxCrcerr d else .rxOk d

/-- The dispatch word of a row of format DW20, none for a host row or RESET. -/
def Instr.dw? : Instr → Option Dw
  | .hopDoneTo d => some d
  | .hopEventTo d => some d
  | .hopIdle d => some d
  | .init d => some d
  | .scanDet d => some d
  | .scanDone d => some d
  | .scanIdle d => some d
  | .scanUnk d => some d
  | .cadDet d => some d
  | .cadStep d => some d
  | .cadWrap d => some d
  | .cadIdle d => some d
  | .cadUnk d => some d
  | .rxCrcerr d => some d
  | .rxReadfail d => some d
  | .rxOk d => some d
  | .rxTimeout d => some d
  | .rxHdr d => some d
  | .rxIdle d => some d
  | .rxUnk d => some d
  | .tx d => some d
  | .txdoneOk d => some d
  | .txdoneWait d => some d
  | .txdoneUnk d => some d
  | .badState d => some d
  | .hRead _ _ => none
  | .hCfgWrite _ => none
  | .hOutWrite _ _ => none
  | .hOutPayloadWrite _ => none
  | .hTxRequest => none
  | .reset => none

/-- The words of an operation (R80, R90; 45_host.md R205). -/
def encode : Instr → Code
  | .hopDoneTo d => .dw d.word
  | .hopEventTo d => .dw d.word
  | .hopIdle d => .dw d.word
  | .init d => .dw d.word
  | .scanDet d => .dw d.word
  | .scanDone d => .dw d.word
  | .scanIdle d => .dw d.word
  | .scanUnk d => .dw d.word
  | .cadDet d => .dw d.word
  | .cadStep d => .dw d.word
  | .cadWrap d => .dw d.word
  | .cadIdle d => .dw d.word
  | .cadUnk d => .dw d.word
  | .rxCrcerr d => .dw d.word
  | .rxReadfail d => .dw d.word
  | .rxOk d => .dw d.word
  | .rxTimeout d => .dw d.word
  | .rxHdr d => .dw d.word
  | .rxIdle d => .dw d.word
  | .rxUnk d => .dw d.word
  | .tx d => .dw d.word
  | .txdoneOk d => .dw d.word
  | .txdoneWait d => .dw d.word
  | .txdoneUnk d => .dw d.word
  | .badState d => .dw d.word
  | .hRead reg data => .host (hostWord false reg data)
  | .hCfgWrite data => .host (hostWord true 0x00 data)
  | .hOutWrite reg data => .host (hostWord true reg data)
  | .hOutPayloadWrite data => .host (hostWord true 0x20 data)
  | .hTxRequest => .host (hostWord true 0x02 1)
  | .reset => .resetSignal

/-- The code that `nbits` bits `w` of the opcode table stand for: no bits for the reset signal, up to 32
for a dispatch word, more for a host word. None where a bit lies above the word. -/
def codeOfTableWord (nbits w : Nat) : Option Code :=
  if nbits = 0 then some .resetSignal
  else if nbits ≤ 32 then (if w < 2 ^ 20 then some (.dw (BitVec.ofNat 20 w)) else none)
  else if w < 2 ^ 40 then some (.host (BitVec.ofNat 40 w)) else none

/-- The operation the decoder reads from an opcode-table word; for a word that selects a group, one of its
rows (the table gives them one and the same word). -/
def decodeTableWord (nbits w : Nat) : Option Instr :=
  match codeOfTableWord nbits w with
  | none => none
  | some c =>
    match decode c with
    | .ok sel => some sel.placedRow
    | .error _ => none

end Sys2Proof
end

