-- ==== Sys2Proof/Machine/State.lean ====
section
/-! DEFINITION. The state of the machine as plain data: the block's registers and staging buffers (spec/10_state.md
R20), the state of the agents it meets at its interface (00_scope.md R7), the model's own record of
outputs, and the parameters; the faults and refusals; and the state after reset. -/

namespace Sys2Proof.Machine
open Sys2Proof

/-- A staging-buffer space (20_memory.md R45): `(index, byte)` cells, indices strictly rising, none equal to
what an unlisted index reads as (0x00; assumption log 4). -/
abbrev Memory := List Host.Cell

/-- The block state: exactly the registers of 10_state.md R20 and the two staging-buffer spaces of
20_memory.md R45. -/
structure Block where
  /-- the control state, a 3-bit code (R21, 30_encoding.md R73) -/
  state : BitVec 3
  /-- the soft-event marker (R22) -/
  softEvent : Bool
  /-- the current spreading factor, its number (R23) -/
  sf : BitVec 4
  /-- the current channel index (R24) -/
  channel : Byte
  /-- (R25) -/
  hopEn : Bool
  /-- (R26) -/
  cadEn : Bool
  /-- (R27) -/
  xcvrModel : Bool
  /-- last time any event occurred (R28) -/
  eventTime : Word
  /-- last time a channel-done signal occurred (R29) -/
  doneTime : Word
  /-- time a detection occurred (R30) -/
  detTime : Word
  /-- time a transmission was initiated (R31) -/
  sendTime : Word
  /-- timestamp of the receive-done handling (R32) -/
  rxTime : Word
  /-- raw RSSI at detection (R34) -/
  detRssi : Byte
  /-- measured length of the inbound payload (R35) -/
  inLen : Half
  /-- decoded SNR, two's complement (R36) -/
  inSnr : Byte
  /-- packet RSSI, two's complement (R37) -/
  inRssi : Half
  /-- SF at reception (R37) -/
  inSf : BitVec 4
  /-- outbound length (R38) -/
  outLen : Half
  /-- target transmit timestamp (R39) -/
  outTmst : Word
  /-- outbound SF code (R39) -/
  outSf : BitVec 4
  /-- transmit power, two's complement (R40) -/
  outPower : Byte
  /-- carrier frequency (R40) -/
  outFreq : Word
  /-- CRC-enable flag (R41) -/
  outCrc : Bool
  /-- IQ-invert flag (R41) -/
  outIq : Bool
  /-- IN_BUF (20_memory.md R45, R46) -/
  inBuf : Memory
  /-- OUT_BUF (20_memory.md R45, R47) -/
  outBuf : Memory
deriving DecidableEq, Repr

/-- The transceiver as the block meets it (20_memory.md R52 to R58): its interrupt registers, the flag sets
it will raise before the next actions (one entry each; none: it raises nothing), and the answers it has
pending for each read (none pending: the read is a draw). -/
structure Radio where
  /-- IRQ_FLAGS (R53) -/
  flags : Byte
  /-- IRQ_MASK (R54) -/
  mask : Byte
  /-- the radio steps that fall before the next actions (R58) -/
  raises : List Byte
  rssi : List Byte
  crcOn : List Byte
  pktSnr : List Byte
  pktRssi : List Byte
  sfCfg : List Byte
  /-- pending answers to READ_PACKET (R56) -/
  packets : List PktAnswer
deriving DecidableEq, Repr

/-- The log sink (00_scope.md R7, 60_exceptions.md R252): the records handed to it that it has not taken yet,
oldest first, and the records it has kept, in the order it took them (assumption log 17). Nothing in
the block reads it (R229). -/
structure LogSink where
  inFlight : List LogCode
  kept : List LogCode
deriving DecidableEq, Repr

/-- What the host interface answers to the step's transaction (45_host.md R206 to R212). -/
inductive Reply where
  /-- the step was no host transaction -/
  | none
  /-- a read returned this value (R206) -/
  | value (w : Word)
  /-- a write or request was performed (R207 to R210) -/
  | accepted
  /-- `Refuse(REFUSE_HOST)`: recorded, with no effect, and the run continues (60_exceptions.md R232, R233;
  assumption log 12) -/
  | refused
deriving DecidableEq, Repr

/-- The whole machine: the block, the agents at its interface, the outputs of the last step, and the
parameters. -/
structure State where
  /-- the block's registers and buffers -/
  block : Block
  /-- the transceiver (20_memory.md R52) -/
  radio : Radio
  /-- what `Now()` returns (60_exceptions.md R242) -/
  now : Word
  /-- pending results of the frame parser (45_host.md R221); none pending: the result is a draw -/
  parser : List Int
  /-- the log sink (00_scope.md R7) -/
  sink : LogSink
  /-- the stimulus still to come (30_encoding.md R97); none left: the invoker decides (assumption log 5) -/
  script : List Stimulus
  /-- the ordered action list of the step's operation (30_encoding.md R86), empty for another agent's step -/
  actions : List Action
  /-- the host interface's answer to the step -/
  reply : Reply
  /-- the model's own: how many draws have been taken; the next draw is an opaque constant applied to it -/
  draws : Nat
  /-- the implementation parameters (00_scope.md R9 to R17); no step writes them -/
  params : Params
deriving DecidableEq, Repr

/-- The model faults (60_exceptions.md R233): situations outside every source's contract. -/
inductive Fault where
  /-- `F_OVERLAP`: an INVOKE, a host transaction or RESET while an invocation is running (45_host.md R219).
  Nothing raises it: steps are atomic here, and "a model that runs invocations as atomic steps can never
  produce this fault" (assumption log 15). Safe. -/
  | overlap
  /-- `F_READ_OVERLEN`: READ_PACKET answered `n > P_IN_CAP` (43_rx.md R169). Raised by the receive-done
  operations that read the packet. Safe: the spec ends the run here. -/
  | readOverlen
deriving DecidableEq, Repr

/-- What the model gives no meaning to. -/
inductive Refusal where
  /-- an arm of `exec` with no meaning. No arm answers it: every row has its meaning. Safe. -/
  | notModelled (mnemonic : String)
  /-- a dispatch word that selects no row: the classifier never produces one (30_encoding.md R84). Raised
  by `step` only if decoding fails, which no state makes happen. Safe. -/
  | noOperation
deriving DecidableEq, Repr

/-- The block right after reset: the values of 10_state.md R20, and zero where R20 says `unspecified`
(assumption log 1). -/
def Block.reset (p : Params) : Block where
  state := stInit
  softEvent := false
  sf := 7
  channel := 0
  hopEn := p.hopEnReset
  cadEn := p.cadEnReset
  xcvrModel := p.xcvrModelReset
  eventTime := 0
  doneTime := 0
  detTime := 0
  sendTime := 0
  rxTime := 0
  detRssi := 0
  inLen := 0
  inSnr := 0
  inRssi := 0
  inSf := 0
  outLen := 0
  outTmst := 0
  outSf := 0
  outPower := 0
  outFreq := 0
  outCrc := false
  outIq := false
  inBuf := []
  outBuf := []

/-- A transceiver with no flag set, nothing masked and no answer pending (DESIGN CHOICE, assumption log 3), and
no flag set to raise between the actions to come (DESIGN CHOICE, assumption logs 3 and 10: the spec leaves
them open, 93_implementation_defined.md U8). -/
def Radio.quiet : Radio where
  flags := 0
  mask := 0
  raises := []
  rssi := []
  crcOn := []
  pktSnr := []
  pktRssi := []
  sfCfg := []
  packets := []

/-- The machine right after reset under given parameters. -/
def State.resetWith (p : Params) : State where
  block := Block.reset p
  radio := Radio.quiet
  now := 0
  parser := []
  sink := { inFlight := [], kept := [] }
  script := []
  actions := []
  reply := .none
  draws := 0
  params := p

/-- The machine right after reset (70_reset_and_hazards.md R260, R261). -/
def State.reset : State := State.resetWith Config.params

end Sys2Proof.Machine
end

