-- ==== Sys2Proof/Machine/Flags.lean ====
section
/-! DEFINITION. The interrupt-cause byte and every test and computation the operations make on flags and
timers: the active set, the hop-stage bit, the triggers' comparisons, budgets, clamp and elapsed time
(spec/30_encoding.md R71, R81; spec/40_classifier.md R103; spec/41_hopper.md R115 to R120). -/

namespace Sys2Proof.Machine
open Sys2Proof

/-- The interrupt causes (30_encoding.md R71). -/
abbrev mRxTout : Byte := 0x80
abbrev mRxDone : Byte := 0x40
abbrev mCrcErr : Byte := 0x20
abbrev mHeader : Byte := 0x10
abbrev mTxDone : Byte := 0x08
abbrev mCdDone : Byte := 0x04
abbrev mOther : Byte := 0x02
abbrev mCdDetd : Byte := 0x01

/-- `M_RXSET = M_RXTOUT | M_RXDONE | M_CRCERR | M_HEADER` (30_encoding.md R71). -/
def mRxSet : Byte := mRxTout ||| mRxDone ||| mCrcErr ||| mHeader

/-- `active = flags & ~mask` (40_classifier.md R103). -/
def activeSet (flags mask : Byte) : Byte := flags &&& ~~~mask

/-- Scan or Cad, the two states in which the hop stage applies (40_classifier.md R106). -/
def scanOrCad (state : BitVec 3) : Bool := state == stScan || state == stCad

/-- `HS = hopEn & (active == 0) & (state == 1 | state == 2)` (30_encoding.md R81). -/
def hopStage (hopEn : Bool) (active : Byte) (state : BitVec 3) : Bool :=
  hopEn && active == 0 && scanOrCad state

/-- An SF code in 7..12 (30_encoding.md R76). -/
def sfRecognized (sf : BitVec 4) : Bool := 7 ≤ sf.toNat && sf.toNat ≤ 12

/-- `EventWait(state)` in microseconds (41_hopper.md R115). -/
def eventWait (p : Params) (state : BitVec 3) : Nat :=
  match state.toNat with
  | 1 => 1 * p.eventUnit
  | 2 => 1 * p.eventUnit
  | 3 => 8 * p.eventUnit
  | 4 => 1 * p.eventUnit
  | 5 => 4 * p.eventUnit
  | _ => 0

/-- EventWait logs its unknown states, codes 6 and 7 (41_hopper.md R115). -/
def eventWaitUnknown (state : BitVec 3) : Bool := 6 ≤ state.toNat

/-- `DoneWait(sf)` in microseconds: the base doubled for each SF step above SF7, and the 1x budget for an
unrecognized SF (41_hopper.md R117, R118). -/
def doneWait (p : Params) (sf : BitVec 4) : Nat :=
  if sfRecognized sf then p.doneBase * 2 ^ (sf.toNat - 7) else p.doneBase

/-- `CLAMP`: a timer ahead of `t` becomes `t`, compared as natural numbers (41_hopper.md R119). -/
def clamp (t x : Word) : Word := if t.toNat < x.toNat then t else x

/-- `Elapsed(x) = t - x` after the clamp, a natural number (41_hopper.md R120). -/
def elapsed (t x : Word) : Nat := t.toNat - (clamp t x).toNat

/-- The detection threshold of Scan (42_init_scan_cad.md R140). -/
def scanThreshold (p : Params) (hopEn : Bool) : Byte :=
  if hopEn then p.rssiLimitHop else p.rssiLimit

/-- "RSSI exceeds a detection threshold": strict, unsigned (42_init_scan_cad.md R139, R140). -/
def rssiExceeds (p : Params) (hopEn : Bool) (r : Byte) : Bool :=
  (scanThreshold p hopEn).toNat < r.toNat

end Sys2Proof.Machine
end

