-- ==== Sys2Proof/Machine/Operands.lean ====
section
/-! DEFINITION. What an operation's operands read as: bytes of the staging buffers, the decoded packet metadata
(spec/43_rx.md R170 to R172), the records of DELIVER and START_TX (R174, spec/44_tx_txdone.md R194), the
fields of the host registers (spec/30_encoding.md R91 to R95), and the dispatch word (R80). -/

namespace Sys2Proof.Machine
open Sys2Proof

/-- The byte an unlisted index of a staging buffer reads as (assumption log 4). -/
abbrev unlistedByte : Byte := 0

/-- `MemRead(space, i, 1)` (20_memory.md R45). -/
def memRead : Memory → Nat → Byte
  | [], _ => unlistedByte
  | (a, v) :: rest, i => if a = i then v else memRead rest i

/-- The bytes `0..n-1` of a staging buffer, in index order (20_memory.md R50). -/
def memPrefix (m : Memory) (n : Nat) : List Byte := (List.range n).map (memRead m)

/-- `SnrDecode(raw)` (43_rx.md R170): the raw field read as two's complement and divided by 4, rounded as
`P_SNR_ROUND` says, in two's complement. -/
def snrDecode (round : SnrRound) (raw : Byte) : Byte :=
  match round with
  | .floor => raw.sshiftRight 2
  | .trunc => BitVec.ofInt 8 (Int.tdiv raw.toInt 4)

/-- `RssiCorr()` (43_rx.md R171). -/
def rssiCorr (p : Params) (xcvrModel : Bool) : Int :=
  if xcvrModel then p.rssiCorrB else p.rssiCorrA

/-- `inRssi = zext_8(prssiRaw) + RssiCorr()`, in 16-bit two's complement (43_rx.md R171). -/
def packetRssi (p : Params) (xcvrModel : Bool) (raw : Byte) : Half :=
  BitVec.ofInt 16 ((raw.toNat : Int) + rssiCorr p xcvrModel)

/-- `sfRaw[3:0]` (43_rx.md R172). -/
def sfField (raw : Byte) : BitVec 4 := raw.extractLsb' 0 4

/-- `InboundRecord()` (43_rx.md R174). -/
def inboundRecord (b : Block) : InRecord where
  payload := memPrefix b.inBuf b.inLen.toNat
  length := b.inLen
  snr := b.inSnr
  rssi := b.inRssi
  sf := b.inSf

/-- `OutboundRecord()` (44_tx_txdone.md R194). -/
def outboundRecord (b : Block) : OutRecord where
  payload := memPrefix b.outBuf b.outLen.toNat
  length := b.outLen
  timestamp := b.outTmst
  sf := b.outSf
  power := b.outPower
  freq := b.outFreq
  crc := b.outCrc
  iqInvert := b.outIq

/-- CTRL: bit 0 HOP_EN, bit 1 CAD_EN, bit 2 XCVR_MODEL (30_encoding.md R92). -/
def ctrlWord (b : Block) : Word :=
  (BitVec.ofBool b.xcvrModel ++ BitVec.ofBool b.cadEn ++ BitVec.ofBool b.hopEn).zeroExtend 32

/-- STATUS: bits [2:0] STATE, bit 3 SOFT_EVENT, bits [7:4] SF (30_encoding.md R93). -/
def statusWord (b : Block) : Word :=
  (b.sf ++ BitVec.ofBool b.softEvent ++ b.state).zeroExtend 32

/-- OUT_FLAGS: bit 0 CRC, bit 1 IQ (30_encoding.md R95). -/
def outFlagsWord (b : Block) : Word :=
  (BitVec.ofBool b.outIq ++ BitVec.ofBool b.outCrc).zeroExtend 32

/-- The value of a host register that is not an indexed payload register, zero-extended to 32 bits
(30_encoding.md R90, R91). An index outside the map has no value and is not readable. -/
def registerWord (b : Block) (reg : BitVec 7) : Word :=
  match reg.toNat with
  | 0x00 => ctrlWord b
  | 0x01 => statusWord b
  | 0x03 => b.channel.zeroExtend 32
  | 0x04 => b.eventTime
  | 0x05 => b.doneTime
  | 0x06 => b.detTime
  | 0x07 => b.sendTime
  | 0x08 => b.rxTime
  | 0x09 => b.detRssi.zeroExtend 32
  | 0x10 => b.inLen.zeroExtend 32
  | 0x11 => b.inSnr.zeroExtend 32
  | 0x12 => b.inRssi.zeroExtend 32
  | 0x13 => b.inSf.zeroExtend 32
  | 0x18 => b.outLen.zeroExtend 32
  | 0x19 => b.outTmst
  | 0x1A => b.outSf.zeroExtend 32
  | 0x1B => b.outPower.zeroExtend 32
  | 0x1C => b.outFreq
  | 0x1D => outFlagsWord b
  | _ => 0

/-- An indexed payload register (30_encoding.md R90): 0x20 OUT_PAYLOAD, 0x21 IN_PAYLOAD. -/
def isPayloadReg (reg : BitVec 7) : Bool := reg == 0x20 || reg == 0x21

/-- `cap(REG)` (45_host.md R206). -/
def payloadCap (p : Params) (reg : BitVec 7) : Nat := if reg == 0x20 then p.outCap else p.inCap

/-- `space(REG)` (45_host.md R206). -/
def payloadSpace (b : Block) (reg : BitVec 7) : Memory := if reg == 0x20 then b.outBuf else b.inBuf

/-- `DATA[15:8]`, the byte index of a payload access (30_encoding.md R90). -/
def payloadIndex (data : Word) : Nat := (data.extractLsb' 8 8).toNat

/-- `DATA[7:0]`, the byte of a payload write (30_encoding.md R90). -/
def payloadByte (data : Word) : Byte := data.extractLsb' 0 8

/-- The dispatch word of an invocation (30_encoding.md R80, R81). -/
def dispatchWord (b : Block) (active : Byte) : Dw where
  active := active
  state := b.state
  hopEn := b.hopEn
  cadEn := b.cadEn
  hs := hopStage b.hopEn active b.state
  sf := b.sf

end Sys2Proof.Machine
end

