-- ==== Sys2Proof/Machine/Ops.lean ====
section
/-! DEFINITION. The shared operations: writes of the staging buffers (spec/20_memory.md R45), the emission of an
action and what it does to the transceiver (R53 to R58), reads answered by the transceiver (R55, R56), and
the procedures several operations call: HOPPER, HOP_ACTION, RESCAN (spec/41_hopper.md R128 to R131),
DETECT_TO_RX (spec/42_init_scan_cad.md R137), RESUME, RX_STAGE and the packet read (spec/43_rx.md R161 to
R169), the reset of the block (spec/70_reset_and_hazards.md R260). The block takes no exception and returns
from none (spec/60_exceptions.md R225, R240, R241): an anomaly is one LOG action. -/

namespace Sys2Proof.Machine
open Sys2Proof

/-! ### Staging buffers -/

/-- `MemWrite(space, i, 1, v)` (20_memory.md R45), keeping the canonical form. -/
def memWrite : Memory → Nat → Byte → Memory
  | [], i, v => if v = unlistedByte then [] else [(i, v)]
  | (a, w) :: rest, i, v =>
    if i < a then (if v = unlistedByte then (a, w) :: rest else (i, v) :: (a, w) :: rest)
    else if i = a then (if v = unlistedByte then rest else (i, v) :: rest)
    else (a, w) :: memWrite rest i v

/-- The bytes of a list written at consecutive indices from `i` on, in index order (20_memory.md R50). -/
def memWriteList (m : Memory) (i : Nat) : List Byte → Memory
  | [] => m
  | v :: rest => memWriteList (memWrite m i v) (i + 1) rest

/-- Every byte below `n` written to 0x00 (43_rx.md R167). -/
def memClear (n : Nat) (m : Memory) : Memory := m.filter fun c => n ≤ c.1

/-- The canonical form: indices strictly rising, no cell equal to what an unlisted index reads as. -/
abbrev Memory.wf (m : Memory) : Prop :=
  m.Pairwise (fun c e => c.1 < e.1) ∧ ∀ c ∈ m, c.2 ≠ unlistedByte

/-- The canonical form inside a space of `cap` bytes (20_memory.md R45). -/
abbrev Memory.wfBelow (cap : Nat) (m : Memory) : Prop := Memory.wf m ∧ ∀ c ∈ m, c.1 < cap

/-! ### Block and action list -/

/-- A write of block registers. -/
def State.modBlock (s : State) (f : Block → Block) : State := { s with block := f s.block }

/-- The radio step that falls before the next action, if one does: `flags <- flags | S` (20_memory.md R53,
R58). -/
def State.radioStep (s : State) : State :=
  match s.radio.raises with
  | [] => s
  | r :: rest => { s with radio := { s.radio with flags := s.radio.flags ||| r, raises := rest } }

/-- `A` appended to the operation's action list (00_scope.md R18). -/
def State.record (s : State) (a : Action) : State := { s with actions := s.actions ++ [a] }

/-- IRQ_FLAGS bits cleared by `CLR_FLAGS` or a primitive: `flags <- flags & ~S` (20_memory.md R53). -/
def State.clearFlags (s : State) (set : Byte) : State :=
  { s with radio := { s.radio with flags := s.radio.flags &&& ~~~set } }

/-- What a driver primitive does to the interrupt registers: it clears the flags `X_PRIMITIVE_CLEARS` gives
it (20_memory.md R53) and leaves IRQ_MASK unchanged or at any value (R54; assumption log 11). -/
def State.driverEffect (s : State) (cleared : Byte) : State :=
  match s.params.driverMask with
  | .unchanged => s.clearFlags cleared
  | .anyValue =>
    { s with
      radio := { s.radio with
        flags := s.radio.flags &&& ~~~cleared, mask := Config.freeByte s.draws },
      draws := s.draws + 1 }

/-- Records handed to the sink, in their order (60_exceptions.md R229). -/
def LogSink.hand (k : LogSink) (l : List LogCode) : LogSink := { k with inFlight := k.inFlight ++ l }

/-- A LOG record handed to the sink: "LOG returns nothing and cannot fail" (60_exceptions.md R229). -/
def State.handToSink (s : State) (c : LogCode) : State := { s with sink := s.sink.hand [c] }

/-- The reaction of the agents outside to an action: the transceiver's, and, for LOG, the log sink's. A
register read has none (20_memory.md R55), and the actions to the parser, the log sink and other software
never reach the transceiver (30_encoding.md R89). -/
def State.react (s : State) (a : Action) : State :=
  match a with
  | .rd _ _ => s
  | .readPacket _ _ => s.clearFlags s.params.clears.readPacket
  | .clrMask => { s with radio := { s.radio with mask := 0 } }
  | .clrFlags set => s.clearFlags set
  | .setDio _ => s.driverEffect s.params.clears.setDio
  | .opmodeCad => s.driverEffect s.params.clears.opmodeCad
  | .setRate _ _ => s.driverEffect s.params.clears.setRate
  | .startRxSingle => s.driverEffect s.params.clears.startRxSingle
  | .startRxCont => s.driverEffect s.params.clears.startRxCont
  | .startTx _ => s.driverEffect s.params.clears.startTx
  | .armScan _ _ => s.driverEffect s.params.clears.armScan
  | .deliver _ _ => s
  | .log c => s.handToSink c
  | .yield => s

/-- `Emit(A)` (00_scope.md R18): the radio step that falls before it, its record, and its effect on the
agent it goes to. -/
def State.emit (s : State) (a : Action) : State := (s.radioStep.record a).react a

/-- `Emit(CLR_MASK)` then `Emit(CLR_FLAGS(S))`: the document's "clear mask/flags" (92_eei_decisions.md D42). -/
def State.clearMaskFlags (s : State) (set : Byte) : State := (s.emit .clrMask).emit (.clrFlags set)

/-! ### Reads answered by the transceiver and the parser -/

/-- The answers pending for a status register. -/
def Radio.pending (r : Radio) : StatusReg → List Byte
  | .rssi => r.rssi
  | .crcOn => r.crcOn
  | .pktSnr => r.pktSnr
  | .pktRssi => r.pktRssi
  | .sfCfg => r.sfCfg

/-- The answers pending for a status register, replaced. -/
def Radio.setPending (r : Radio) (q : StatusReg) (l : List Byte) : Radio :=
  match q with
  | .rssi => { r with rssi := l }
  | .crcOn => { r with crcOn := l }
  | .pktSnr => { r with pktSnr := l }
  | .pktRssi => { r with pktRssi := l }
  | .sfCfg => { r with sfCfg := l }

/-- What `RegRead(R)` of a status register returns: the next pending answer, else a draw (20_memory.md R55,
30_encoding.md R97). -/
def State.statusValue (s : State) (q : StatusReg) : Byte :=
  match s.radio.pending q with
  | v :: _ => v
  | [] => Config.freeByte s.draws

/-- The answer, or the draw, taken. -/
def State.takeStatus (s : State) (q : StatusReg) : State :=
  match s.radio.pending q with
  | _ :: rest => { s with radio := s.radio.setPending q rest }
  | [] => { s with draws := s.draws + 1 }

/-- `RegRead(R)` of a status register: the state after it; its value is `statusValue` before it. -/
def State.readStatus (s : State) (q : StatusReg) : State :=
  (s.takeStatus q).emit (.rd (.status q) (s.statusValue q))

/-- The length READ_PACKET answers, a signed 16-bit number (20_memory.md R56). -/
def State.packetLength (s : State) : Int :=
  match s.radio.packets with
  | p :: _ => p.n.toInt
  | [] => (Config.freeHalf s.draws).toInt

/-- Byte `i` of the packet READ_PACKET answers: the pending answer's, else a draw (20_memory.md R56). -/
def State.packetByte (s : State) (i : Nat) : Byte :=
  match s.radio.packets with
  | p :: _ => (p.bytes[i]?).getD (Config.freeByte (s.draws + 1 + i))
  | [] => Config.freeByte (s.draws + 1 + i)

/-- The bytes `b0..b(n-1)` of a packet of positive length; none for a failed read (20_memory.md R56). -/
def State.packetBytes (s : State) : List Byte :=
  (List.range s.packetLength.toNat).map s.packetByte

/-- What READ_PACKET leaves in IN_BUF: the packet's bytes from index 0 on, or, where the read failed,
unspecified bytes throughout (20_memory.md R56; assumption log 14). -/
def State.packetFill (s : State) : List Byte :=
  if 0 < s.packetLength then s.packetBytes
  else (List.range s.params.inCap).map fun i => Config.freeByte (s.draws + 1 + i)

/-- The length and the bytes taken: as many draws as the read can have used. -/
def State.takePacket (s : State) : State :=
  { s with
    radio := { s.radio with packets := s.radio.packets.tail },
    draws := s.draws + 1 + s.params.inCap }

/-- `ReadPacket(IN_BUF)` whose answer lies inside the contract, `n ≤ P_IN_CAP` (20_memory.md R56). -/
def State.readPacket (s : State) : State :=
  (s.takePacket.modBlock fun b => { b with inBuf := memWriteList b.inBuf 0 s.packetFill }).emit
    (.readPacket (BitVec.ofInt 16 s.packetLength) s.packetBytes)

/-- The parser's result `k` for the next DELIVER: the pending answer, else a draw (45_host.md R221). -/
def State.parserValue (s : State) : Int :=
  match s.parser with
  | k :: _ => k
  | [] => Config.freeInt s.draws

/-- The result, or the draw, taken. -/
def State.takeParser (s : State) : State :=
  match s.parser with
  | _ :: rest => { s with parser := rest }
  | [] => { s with draws := s.draws + 1 }

/-- `DELIVER(InboundRecord())`: the synchronous call of the parser (43_rx.md R175). -/
def State.deliver (s : State) : State :=
  s.takeParser.emit (.deliver (inboundRecord s.block) s.parserValue)

/-! ### Hopper and rescan -/

/-- The channel after a hop: `(channel + 1) mod P_NUM_CHANNELS`, exact before the modulo (41_hopper.md R129,
R130). -/
def nextChannel (p : Params) (channel : Byte) : Byte :=
  BitVec.ofNat 8 ((channel.toNat + 1) % p.numChannels)

/-- `HOPPER()` (41_hopper.md R129). -/
def State.hopper (s : State) : State :=
  (s.modBlock fun b => { b with channel := nextChannel s.params b.channel, sf := 7 }).emit
    (.armScan (nextChannel s.params s.block.channel) 7)

/-- `HOP_ACTION()` (41_hopper.md R128). -/
def State.hopAction (s : State) : State :=
  ((s.modBlock fun b => { b with state := stScan }).hopper).modBlock fun b =>
    { b with doneTime := s.now, eventTime := s.now }

/-- `RESCAN()` (41_hopper.md R131). -/
def State.rescan (s : State) : State :=
  (s.modBlock fun b => { b with sf := 7 }).emit (.armScan s.block.channel 7)

/-- "if hop or CAD mode enabled" (10_state.md R25, R26). -/
def hopOrCad (b : Block) : Bool := b.hopEn || b.cadEn

/-- `RESUME()` (43_rx.md R161). -/
def State.resume (s : State) : State :=
  if hopOrCad s.block then s.rescan.modBlock fun b => { b with state := stScan }
  else (s.emit .startRxCont).modBlock fun b => { b with state := stRx }

/-- The shared prefix of the HOP group (41_hopper.md R122): the two budgets' logs, then both clamps. -/
def State.hopPrep (s : State) : State :=
  let s1 := if eventWaitUnknown s.block.state then s.emit (.log .eventWaitUnknown) else s
  let s2 := if sfRecognized s.block.sf then s1 else s1.emit (.log .sfUnknown)
  s2.modBlock fun b => { b with eventTime := clamp s.now b.eventTime, doneTime := clamp s.now b.doneTime }

/-- The late guard of HOP_DONE_TO: `t - doneTime > DoneWait(sf)` after the clamp (41_hopper.md R123). -/
def State.doneExpired (s : State) : Bool :=
  doneWait s.params s.block.sf < elapsed s.now s.block.doneTime

/-- The second late guard of the HOP group: `t - eventTime > EventWait(state)` after the clamp (41_hopper.md
R124). -/
def State.eventExpired (s : State) : Bool :=
  eventWait s.params s.block.state < elapsed s.now s.block.eventTime

/-! ### Detection and reception -/

/-- `DIO_RX` (30_encoding.md R86). -/
abbrev dioRx : Byte := 0x01

/-- `DETECT_TO_RX()` (42_init_scan_cad.md R137). -/
def State.detectToRx (s : State) : State :=
  let s1 := (s.emit (.setDio dioRx)).modBlock fun b => { b with softEvent := false }
  let s2 := (s1.readStatus .rssi).modBlock fun b =>
    { b with detRssi := s1.statusValue .rssi, detTime := s.now }
  ((s2.emit (.clrFlags 0xFF)).emit .startRxSingle).modBlock fun b => { b with state := stRx }

/-- `RX_STAGE()` (43_rx.md R167). -/
def State.rxStage (s : State) : State :=
  s.modBlock fun b => { b with rxTime := s.now, inBuf := memClear s.params.inCap b.inBuf, inLen := 0 }

/-- `crcOn = c[0]` for `c <- RegRead(CRC_ON)` (43_rx.md R162, R163). -/
def State.crcOn (s : State) : Bool := (s.statusValue .crcOn)[0]

/-- The state in which the receive-done operations call READ_PACKET: CRC_ON read, the buffer staged (43_rx.md
R162). -/
def State.rxStaged (s : State) : State := (s.readStatus .crcOn).rxStage

/-- The length `n` the receive-done's READ_PACKET answers (43_rx.md R162, R168). -/
def State.rxLength (s : State) : Int := s.rxStaged.packetLength

/-- "elif n > P_IN_CAP: raise Fault(F_READ_OVERLEN)" (43_rx.md R162, R169). -/
def State.rxOverlen (s : State) : Bool := (s.params.inCap : Int) < s.rxLength

/-- The state after the receive-done prefix: CRC_ON read, the buffer staged, the packet read (43_rx.md R162). -/
def State.rxRead (s : State) : State := s.rxStaged.readPacket

/-! ### Host interface -/

/-- `Refuse(REFUSE_HOST)`: recorded, with no effect (60_exceptions.md R232). -/
def State.refuse (s : State) : State := { s with reply := .refused }

/-- A read's value returned (45_host.md R206). -/
def State.answerHost (s : State) (w : Word) : State := { s with reply := .value w }

/-- A write performed (45_host.md R207 to R210). -/
def State.accept (s : State) (f : Block → Block) : State :=
  { s with block := f s.block, reply := .accepted }

/-! ### Reset -/

/-- A time value the spec leaves free, in `[0, P_TIME_MOD)` (93_implementation_defined.md U1). -/
def freeTime (p : Params) (k : Nat) : Word := BitVec.ofNat 32 ((Config.freeWord k).toNat % p.timeMod)

/-- A buffer of `n` bytes whose contents the spec leaves free (20_memory.md R46, R47). -/
def freeMemory (n k : Nat) : Memory :=
  memWriteList [] 0 ((List.range n).map fun i => Config.freeByte (k + i))

/-- How many draws RESET takes. -/
def resetDraws (p : Params) : Nat := 16 + p.inCap + p.outCap

/-- The block after RESET (70_reset_and_hazards.md R260): the values of 10_state.md R20, and a draw for each
register and each buffer byte that R20 leaves unspecified. -/
def Block.afterReset (p : Params) (k : Nat) : Block where
  state := stInit
  softEvent := false
  sf := 7
  channel := 0
  hopEn := p.hopEnReset
  cadEn := p.cadEnReset
  xcvrModel := p.xcvrModelReset
  eventTime := freeTime p k
  doneTime := freeTime p (k + 1)
  detTime := freeTime p (k + 2)
  sendTime := freeTime p (k + 3)
  rxTime := freeTime p (k + 4)
  detRssi := Config.freeByte (k + 5)
  inLen := 0
  inSnr := Config.freeByte (k + 6)
  inRssi := Config.freeHalf (k + 7)
  inSf := (Config.freeByte (k + 8)).extractLsb' 0 4
  outLen := BitVec.ofNat 16 ((Config.freeHalf (k + 9)).toNat % (p.outCap + 1))
  outTmst := Config.freeWord (k + 10)
  outSf := (Config.freeByte (k + 11)).extractLsb' 0 4
  outPower := Config.freeByte (k + 12)
  outFreq := Config.freeWord (k + 13)
  outCrc := (Config.freeByte (k + 14))[0]
  outIq := (Config.freeByte (k + 15))[0]
  inBuf := freeMemory p.inCap (k + 16)
  outBuf := freeMemory p.outCap (k + 16 + p.inCap)

/-! ### The start of a step -/

/-- A step starts with an empty action list and no reply: both belong to one step. -/
def State.startStep (s : State) : State := { s with actions := [], reply := .none }

end Sys2Proof.Machine
end

