-- ==== Sys2Proof/Machine/Classifier.lean ====
section
/-! DEFINITION. The interrupt classifier (spec/40_classifier.md): the prologue of an invocation, the dispatch word
it forms, and the selection of the operation (R82 to R84), the late guards of the two groups among it. -/

namespace Sys2Proof.Machine
open Sys2Proof

/-- The prologue's start: a fresh action list and `softEvent <- 0` (R104). -/
def State.invocationStart (s : State) : State :=
  s.startStep.modBlock fun b => { b with softEvent := false }

/-- `flags <- RegRead(IRQ_FLAGS)` (R102): the transceiver's flags at the read, after the radio step that
falls before it. -/
def State.latchedFlags (s : State) : Byte := s.radioStep.radio.flags

/-- `mask <- RegRead(IRQ_MASK)` (R102). -/
def State.latchedMask (s : State) : Byte := s.radioStep.radio.mask

/-- The state after the prologue's two reads, in their order (R102). -/
def State.afterReads (s : State) : State :=
  let s1 := s.emit (.rd .irqFlags s.latchedFlags)
  s1.emit (.rd .irqMask s1.latchedMask)

/-- The flags an invocation latches. -/
def State.invocationFlags (s : State) : Byte := s.invocationStart.latchedFlags

/-- The mask an invocation latches: read second, after the RD of IRQ_FLAGS. -/
def State.invocationMask (s : State) : Byte :=
  (s.invocationStart.emit (.rd .irqFlags s.invocationFlags)).latchedMask

/-- The active set of an invocation (R103). -/
def State.invocationActive (s : State) : Byte := activeSet s.invocationFlags s.invocationMask

/-- The dispatch word of an invocation (R100, 30_encoding.md R80). -/
def State.invocationDw (s : State) : Dw := dispatchWord s.block s.invocationActive

/-- The prologue (R100): marker cleared, flags and mask read, A_MASKED logged if a masked cause is pending
(R105), YIELD where hop is enabled, nothing is active and the hop stage does not apply (R107). -/
def State.prologue (s : State) : State :=
  let s1 := s.invocationStart.afterReads
  let s2 := if s.invocationActive = s.invocationFlags then s1 else s1.emit (.log .masked)
  if s.block.hopEn && s.invocationActive == 0 && !scanOrCad s.block.state then s2.emit .yield else s2

/-- The row of a selection: of a group, the first whose late guard holds on the state the group's operation
starts in (30_encoding.md R82; 41_hopper.md R122; 43_rx.md R162). The receive-done row of an over-long
answer is RX_OK, whose packet read faults (43_rx.md R169; assumption log 8). -/
def resolve (sel : Selected) (s : State) : Instr :=
  match sel with
  | .row i => i
  | .hopGroup d =>
    if s.doneExpired then .hopDoneTo d else if s.eventExpired then .hopEventTo d else .hopIdle d
  | .rxDoneGroup d =>
    if d.active[5] && s.crcOn then .rxCrcerr d
    else if s.rxLength ≤ 0 then .rxReadfail d else .rxOk d

/-- The operation an invocation runs: `Decode(DW)`, resolved on the state after the prologue (R100, R108). -/
def State.invocationInstr (s : State) : Except DecodeError Instr :=
  match decodeDw s.invocationDw.word with
  | .ok sel => .ok (resolve sel s.prologue)
  | .error e => .error e

end Sys2Proof.Machine
end

