-- ==== Sys2Proof/Machine/Hop.lean ====
section
/-! DEFINITION. The HOP group's operations (spec/41_hopper.md R122 to R125). Each runs the group's shared prefix and
then its own row; which row runs is the classifier's late guards (Classifier.lean). -/

namespace Sys2Proof.Machine
open Sys2Proof

/-- HOP_DONE_TO: the per-SF budget has run out; hop (R123). -/
def execHopDoneTo (_d : Dw) (s : State) : Host.Outcome State Fault Refusal :=
  .next s.hopPrep.hopAction

/-- HOP_EVENT_TO: the per-state budget has run out; "identical hop action as above" (R124). -/
def execHopEventTo (_d : Dw) (s : State) : Host.Outcome State Fault Refusal :=
  .next s.hopPrep.hopAction

/-- HOP_IDLE: no timeout; only the prefix's log and clamps stand (R125). -/
def execHopIdle (_d : Dw) (s : State) : Host.Outcome State Fault Refusal :=
  .next s.hopPrep

end Sys2Proof.Machine
end

