-- ==== Sys2Proof/Machine/HostOps.lean ====
section
/-! DEFINITION. The host transactions and the reset signal (spec/45_host.md). A transaction that breaks a rule is
refused as the spec says: the refusal is recorded in the reply, nothing else changes, and the run goes on
(spec/60_exceptions.md R232). -/

namespace Sys2Proof.Machine
open Sys2Proof

/-- H_READ (R206). -/
def execHRead (reg : BitVec 7) (data : Word) (s : State) : Host.Outcome State Fault Refusal :=
  if isPayloadReg reg then
    if payloadCap s.params reg ≤ payloadIndex data || data.extractLsb' 16 16 != 0 || payloadByte data != 0 then
      .next s.refuse
    else .next (s.answerHost ((memRead (payloadSpace s.block reg) (payloadIndex data)).zeroExtend 32))
  else if data != 0 || !readableReg reg then .next s.refuse
  else .next (s.answerHost (registerWord s.block reg))

/-- H_CFG_WRITE (R207, 30_encoding.md R92). -/
def execHCfgWrite (data : Word) (s : State) : Host.Outcome State Fault Refusal :=
  if data.extractLsb' 3 29 != 0 then .next s.refuse
  else .next (s.accept fun b => { b with hopEn := data[0], cadEn := data[1], xcvrModel := data[2] })

/-- H_OUT_WRITE (R208): refused while the slot is claimed (R222), checked and written one register at a
time. -/
def execHOutWrite (reg : BitVec 7) (data : Word) (s : State) : Host.Outcome State Fault Refusal :=
  if s.block.state == stTx then .next s.refuse
  else match reg.toNat with
    | 0x18 =>
      if s.params.outCap < data.toNat then .next s.refuse
      else .next (s.accept fun b => { b with outLen := data.extractLsb' 0 16 })
    | 0x19 => .next (s.accept fun b => { b with outTmst := data })
    | 0x1A =>
      if data.extractLsb' 4 28 != 0 then .next s.refuse
      else .next (s.accept fun b => { b with outSf := data.extractLsb' 0 4 })
    | 0x1B =>
      if data.extractLsb' 8 24 != 0 then .next s.refuse
      else .next (s.accept fun b => { b with outPower := data.extractLsb' 0 8 })
    | 0x1C => .next (s.accept fun b => { b with outFreq := data })
    | 0x1D =>
      if data.extractLsb' 2 30 != 0 then .next s.refuse
      else .next (s.accept fun b => { b with outCrc := data[0], outIq := data[1] })
    | _ => .next s.refuse

/-- H_OUT_PAYLOAD_WRITE (R209). -/
def execHOutPayloadWrite (data : Word) (s : State) : Host.Outcome State Fault Refusal :=
  if s.block.state == stTx then .next s.refuse
  else if data.extractLsb' 16 16 != 0 || s.params.outCap ≤ payloadIndex data then .next s.refuse
  else .next (s.accept fun b => { b with outBuf := memWrite b.outBuf (payloadIndex data) (payloadByte data) })

/-- H_TX_REQUEST (R210, R211). -/
def execHTxRequest (s : State) : Host.Outcome State Fault Refusal :=
  if s.block.state == stTx then .next s.refuse
  else .next (s.accept fun b => { b with state := stTx, softEvent := true })

/-- RESET (R213; 70_reset_and_hazards.md R260, R262): the block's registers and buffers only. -/
def execReset (s : State) : Host.Outcome State Fault Refusal :=
  .next { s with block := Block.afterReset s.params s.draws, draws := s.draws + resetDraws s.params }

end Sys2Proof.Machine
end

