-- ==== Sys2Proof/Machine/Rx.lean ====
section
/-! DEFINITION. The Rx operations (spec/43_rx.md). The three receive-done rows run the group's shared prefix and
then their own row; which row runs is the classifier's late guards (Classifier.lean). -/

namespace Sys2Proof.Machine
open Sys2Proof

/-- RX_CRCERR (R164): after RD(3), the payload is not read. -/
def execRxCrcerr (_d : Dw) (s : State) : Host.Outcome State Fault Refusal :=
  .next ((((s.readStatus .crcOn).emit (.log .rxCrc)).clearMaskFlags mRxSet).resume)

/-- RX_READFAIL (R165): "clear mask only", Scan, the marker set; the flags stay. -/
def execRxReadfail (_d : Dw) (s : State) : Host.Outcome State Fault Refusal :=
  if s.rxOverlen then .fault .readOverlen
  else
    .next ((((s.rxRead.emit (.log .rxReadfail)).modBlock fun b => { b with softEvent := true }).emit
      .clrMask).modBlock fun b => { b with state := stScan })

/-- The body of RX_OK from the three metadata reads to the log of the parser's result, for a packet of `n`
bytes already in IN_BUF (R166). -/
def State.deliverPacket (s : State) (n : Nat) : State :=
  let s1 := s.readStatus .pktSnr
  let s2 := s1.readStatus .pktRssi
  let s3 := s2.readStatus .sfCfg
  let s4 := s3.modBlock fun b =>
    { b with
      inLen := BitVec.ofNat 16 n,
      inSnr := snrDecode s.params.snrRound (s.statusValue .pktSnr),
      inRssi := packetRssi s.params b.xcvrModel (s1.statusValue .pktRssi),
      inSf := sfField (s2.statusValue .sfCfg) }
  s4.deliver.emit (.log .parserResult)

/-- RX_OK (R166). A packet longer than the buffer faults (R169). -/
def execRxOk (_d : Dw) (s : State) : Host.Outcome State Fault Refusal :=
  if s.rxOverlen then .fault .readOverlen
  else
    .next ((((s.rxRead.deliverPacket s.rxLength.toNat).resume).clearMaskFlags 0xFF).modBlock fun b =>
      { b with eventTime := s.now, softEvent := false })

/-- RX_TIMEOUT (R176): mask and flags cleared, then the body of RESUME with the log in its hop/CAD branch;
both timers refreshed. -/
def execRxTimeout (_d : Dw) (s : State) : Host.Outcome State Fault Refusal :=
  let s1 := s.clearMaskFlags 0xFF
  let s2 :=
    if hopOrCad s.block then
      ((s1.emit (.log .rxTimeout)).rescan).modBlock fun b => { b with state := stScan }
    else s1.emit .startRxCont
  .next (s2.modBlock fun b => { b with eventTime := s.now, doneTime := s.now })

/-- RX_HDR (R177): "informational"; nothing beyond the prologue. -/
def execRxHdr (_d : Dw) (s : State) : Host.Outcome State Fault Refusal := .next s

/-- RX_IDLE (R178): "no-op". -/
def execRxIdle (_d : Dw) (s : State) : Host.Outcome State Fault Refusal := .next s

/-- RX_UNK (R179, R180): a log and nothing else. -/
def execRxUnk (_d : Dw) (s : State) : Host.Outcome State Fault Refusal :=
  .next (s.emit (.log .rxUnknown))

end Sys2Proof.Machine
end

