-- ==== Sys2Proof/Machine/ScanCad.lean ====
section
/-! DEFINITION. The Init, Scan and Cad operations (spec/42_init_scan_cad.md). -/

namespace Sys2Proof.Machine
open Sys2Proof

/-- INIT (R136): flags, then mask; the marker; Scan. -/
def execInit (_d : Dw) (s : State) : Host.Outcome State Fault Refusal :=
  .next (((s.emit (.clrFlags 0xFF)).emit .clrMask).modBlock fun b =>
    { b with softEvent := false, state := stScan })

/-- SCAN_DET (R138). -/
def execScanDet (_d : Dw) (s : State) : Host.Outcome State Fault Refusal :=
  .next s.detectToRx

/-- SCAN_DONE (R139): CAD mode, the RSSI read and compared, mask and flags cleared, `doneTime <- t`. -/
def execScanDone (_d : Dw) (s : State) : Host.Outcome State Fault Refusal :=
  let s1 := s.emit .opmodeCad
  let s2 := (s1.readStatus .rssi).modBlock fun b =>
    { b with state := if rssiExceeds s.params b.hopEn (s1.statusValue .rssi) then stCad else b.state }
  .next ((s2.clearMaskFlags 0xFF).modBlock fun b => { b with doneTime := s.now })

/-- SCAN_IDLE (R141). -/
def execScanIdle (_d : Dw) (s : State) : Host.Outcome State Fault Refusal :=
  .next (s.modBlock fun b => { b with softEvent := false })

/-- SCAN_UNK (R142). -/
def execScanUnk (_d : Dw) (s : State) : Host.Outcome State Fault Refusal :=
  .next ((s.emit (.log .scanUnknown)).clearMaskFlags 0xFF)

/-- CAD_DET (R143). -/
def execCadDet (_d : Dw) (s : State) : Host.Outcome State Fault Refusal :=
  .next s.detectToRx

/-- CAD_STEP (R144): SF up by one, SET_RATE at the new SF, mask cleared, the flags of `P_CAD_STEP_CLEAR`
cleared if there are any, CAD restarted, `doneTime <- t`. -/
def execCadStep (_d : Dw) (s : State) : Host.Outcome State Fault Refusal :=
  let s1 := (s.modBlock fun b => { b with sf := b.sf + 1 }).emit
    (.setRate (s.block.sf + 1) s.params.cadRateFlags)
  let s2 := (s1.modBlock fun b => { b with softEvent := false }).emit .clrMask
  let s3 := if s.params.cadStepClear = 0 then s2 else s2.emit (.clrFlags s.params.cadStepClear)
  .next ((s3.emit .opmodeCad).modBlock fun b => { b with doneTime := s.now })

/-- CAD_WRAP (R145). -/
def execCadWrap (_d : Dw) (s : State) : Host.Outcome State Fault Refusal :=
  .next ((s.rescan.clearMaskFlags 0xFF).modBlock fun b =>
    { b with softEvent := true, state := stScan, doneTime := s.now })

/-- CAD_IDLE (R146). -/
def execCadIdle (_d : Dw) (s : State) : Host.Outcome State Fault Refusal :=
  .next ((s.emit (.log .cadIdle)).modBlock fun b => { b with softEvent := true })

/-- CAD_UNK (R147). -/
def execCadUnk (_d : Dw) (s : State) : Host.Outcome State Fault Refusal :=
  .next (((s.emit (.log .cadUnknown)).rescan.clearMaskFlags 0xFF).modBlock fun b =>
    { b with softEvent := true, state := stScan })

end Sys2Proof.Machine
end

