-- ==== Sys2Proof/Machine/Tx.lean ====
section
/-! DEFINITION. The Tx, TxDone and unrecognized-state operations (spec/44_tx_txdone.md). -/

namespace Sys2Proof.Machine
open Sys2Proof

/-- TX (R186): the forced-transition log where nothing was active (R187), mask and flags cleared, one
START_TX of the outbound slot, `sendTime <- t` (R188), the marker, TxDone. -/
def execTx (d : Dw) (s : State) : Host.Outcome State Fault Refusal :=
  let s1 := if d.active = 0 then s.emit (.log .txForced) else s
  .next (((s1.clearMaskFlags 0xFF).emit (.startTx (outboundRecord s.block))).modBlock fun b =>
    { b with sendTime := s.now, softEvent := true, state := stTxDone })

/-- TXDONE_OK (R189). -/
def execTxdoneOk (_d : Dw) (s : State) : Host.Outcome State Fault Refusal :=
  .next ((s.clearMaskFlags 0xFF).modBlock fun b => { b with softEvent := false }).resume

/-- TXDONE_WAIT (R191): the clamp of `sendTime`, and the receiver re-armed once the deadline has passed, with
`state` and `sendTime` kept. -/
def execTxdoneWait (_d : Dw) (s : State) : Host.Outcome State Fault Refusal :=
  let s1 := s.modBlock fun b => { b with sendTime := clamp s.now b.sendTime }
  .next (if s.params.txDeadline < elapsed s.now s.block.sendTime then
    (s1.emit (.log .txDeadline)).emit .startRxCont else s1)

/-- TXDONE_UNK (R190): Scan with no rescan. -/
def execTxdoneUnk (_d : Dw) (s : State) : Host.Outcome State Fault Refusal :=
  .next (((s.emit (.log .txdoneUnknown)).clearMaskFlags 0xFF).modBlock fun b =>
    { b with softEvent := false, state := stScan })

/-- BAD_STATE (R193): the `default` branch. -/
def execBadState (_d : Dw) (s : State) : Host.Outcome State Fault Refusal :=
  .next ((((s.emit (.log .badState)).resume).clearMaskFlags 0xFF).modBlock fun b =>
    { b with eventTime := s.now })

end Sys2Proof.Machine
end

