-- ==== Sys2Proof/Machine/Dispatch.lean ====
section
/-! DEFINITION. The dispatch: one arm per row of spec/opcode_table.json, each one call of its meaning. -/

namespace Sys2Proof.Machine
open Sys2Proof

def exec (i : Instr) (s : State) : Host.Outcome State Fault Refusal :=
  match i with
  | .hopDoneTo d => Sys2Proof.Machine.execHopDoneTo d s
  | .hopEventTo d => Sys2Proof.Machine.execHopEventTo d s
  | .hopIdle d => Sys2Proof.Machine.execHopIdle d s
  | .init d => Sys2Proof.Machine.execInit d s
  | .scanDet d => Sys2Proof.Machine.execScanDet d s
  | .scanDone d => Sys2Proof.Machine.execScanDone d s
  | .scanIdle d => Sys2Proof.Machine.execScanIdle d s
  | .scanUnk d => Sys2Proof.Machine.execScanUnk d s
  | .cadDet d => Sys2Proof.Machine.execCadDet d s
  | .cadStep d => Sys2Proof.Machine.execCadStep d s
  | .cadWrap d => Sys2Proof.Machine.execCadWrap d s
  | .cadIdle d => Sys2Proof.Machine.execCadIdle d s
  | .cadUnk d => Sys2Proof.Machine.execCadUnk d s
  | .rxCrcerr d => Sys2Proof.Machine.execRxCrcerr d s
  | .rxReadfail d => Sys2Proof.Machine.execRxReadfail d s
  | .rxOk d => Sys2Proof.Machine.execRxOk d s
  | .rxTimeout d => Sys2Proof.Machine.execRxTimeout d s
  | .rxHdr d => Sys2Proof.Machine.execRxHdr d s
  | .rxIdle d => Sys2Proof.Machine.execRxIdle d s
  | .rxUnk d => Sys2Proof.Machine.execRxUnk d s
  | .tx d => Sys2Proof.Machine.execTx d s
  | .txdoneOk d => Sys2Proof.Machine.execTxdoneOk d s
  | .txdoneWait d => Sys2Proof.Machine.execTxdoneWait d s
  | .txdoneUnk d => Sys2Proof.Machine.execTxdoneUnk d s
  | .badState d => Sys2Proof.Machine.execBadState d s
  | .hRead reg data => Sys2Proof.Machine.execHRead reg data s
  | .hCfgWrite data => Sys2Proof.Machine.execHCfgWrite data s
  | .hOutWrite reg data => Sys2Proof.Machine.execHOutWrite reg data s
  | .hOutPayloadWrite data => Sys2Proof.Machine.execHOutPayloadWrite data s
  | .hTxRequest => Sys2Proof.Machine.execHTxRequest s
  | .reset => Sys2Proof.Machine.execReset s

end Sys2Proof.Machine
end

