-- ==== Sys2Proof/Machine/Environment.lean ====
section
/-! DEFINITION. The steps of the agents outside the block: the transceiver, the time source, the parser's stubs
and the log sink (spec/30_encoding.md R97, spec/20_memory.md R53 to R56, spec/60_exceptions.md R242, R252),
none of which writes block state (spec/45_host.md R205); and the invoker's choice of when an invocation runs
(spec/45_host.md R214 to R218). -/

namespace Sys2Proof.Machine
open Sys2Proof

/-- `RADIO <bits>`: the radio raises causes, `flags <- flags | S` (20_memory.md R53). -/
def State.radioRaise (s : State) (bits : Byte) : State :=
  { s with radio := { s.radio with flags := s.radio.flags ||| bits } }

/-- The radio steps that will fall between the next actions (20_memory.md R58). -/
def State.scheduleRaises (s : State) (sets : List Byte) : State :=
  { s with radio := { s.radio with raises := s.radio.raises ++ sets } }

/-- `SETMASK <byte>`: the driver leaves IRQ_MASK at this value (20_memory.md R54). -/
def State.setMask (s : State) (mask : Byte) : State :=
  { s with radio := { s.radio with mask := mask } }

/-- `TIME <t>`: the time source's value, below `P_TIME_MOD` (60_exceptions.md R242; assumption log 13). -/
def State.setTime (s : State) (t : Nat) : State :=
  { s with now := BitVec.ofNat 32 (t % s.params.timeMod) }

/-- `ANSWER <R>=<v>`: a pending answer, after those already pending (assumption log 7). -/
def State.addAnswer (s : State) (q : StatusReg) (v : Byte) : State :=
  { s with radio := s.radio.setPending q (s.radio.pending q ++ [v]) }

/-- `ANSWER PKT …`. -/
def State.addPacket (s : State) (p : PktAnswer) : State :=
  { s with radio := { s.radio with packets := s.radio.packets ++ [p] } }

/-- `ANSWER PARSER=<k>`. -/
def State.addParser (s : State) (k : Int) : State := { s with parser := s.parser ++ [k] }

/-- The log sink takes the `i`-th record on its way to it, and keeps or drops it: it "may drop, delay or
reorder records" (60_exceptions.md R252). No such record: nothing happens. -/
def State.sinkTakes (s : State) (i : Nat) (keep : Bool) : State :=
  { s with sink := {
      inFlight := s.sink.inFlight.eraseIdx i
      kept := if keep then s.sink.kept ++ s.sink.inFlight[i]?.toList else s.sink.kept } }

/-- One stimulus of an agent other than the host, the reset signal and the invoker. -/
def State.stimulate (s : State) : Stimulus → State
  | .radio bits => s.radioRaise bits
  | .raiseDuring sets => s.scheduleRaises sets
  | .setMask mask => s.setMask mask
  | .time t => s.setTime t
  | .answer q v => s.addAnswer q v
  | .answerPkt p => s.addPacket p
  | .answerParser k => s.addParser k
  | .sink i keep => s.sinkTakes i keep
  | .reset => s
  | .host _ => s
  | .invoke => s

/-! ### The invoker -/

/-- The transceiver's interrupt line: `IRQ_FLAGS & ~IRQ_MASK ≠ 0`, level-sensitive (45_host.md R216). -/
def State.irqLine (s : State) : Bool := activeSet s.radio.flags s.radio.mask != 0

/-- A trigger of the invoker (45_host.md R215): the interrupt line, the marker (R217) or hop polling (R218). -/
def State.trigger (s : State) : Bool := s.irqLine || s.block.softEvent || s.block.hopEn

/-- Whether the invoker invokes where it need not: "without a trigger the invoker need never invoke"
(45_host.md R215), and it may (R214). A free choice (93_implementation_defined.md U14). -/
def State.untriggeredChoice (s : State) : Bool := (Config.freeByte s.draws)[0]

/-- Whose step comes next: the script's next entry; with none left, an invocation where a trigger holds or the
invoker chooses one, and otherwise no agent's (45_host.md R214, R215; assumption log 5). -/
def State.nextStimulus (s : State) : Option Stimulus :=
  match s.script with
  | x :: _ => some x
  | [] => if s.trigger || s.untriggeredChoice then some .invoke else none

/-- The state with its next stimulus taken: the script's entry, or the draw of the invoker's free choice. -/
def State.popped (s : State) : State :=
  match s.script with
  | _ :: rest => { s with script := rest }
  | [] => if s.trigger then s else { s with draws := s.draws + 1 }

/-! ### Placing an encoded operation where the next step runs it -/

/-- A 3-bit state in which the classifier forms a dispatch word with this hop-stage bit: the word's own,
unless a set HS bit needs Scan or Cad (30_encoding.md R81). -/
def fetchState (d : Dw) : BitVec 3 := if d.hs && !scanOrCad d.state then stScan else d.state

/-- The active set the classifier must find: none where HS is set (30_encoding.md R81). -/
def fetchActive (d : Dw) : Byte := if d.hs then 0 else d.active

/-- The hop enable the classifier must find: set where HS is set, clear where HS is clear and hop enabled
would set it (30_encoding.md R81). -/
def fetchHopEn (d : Dw) : Bool := d.hs || (d.hopEn && !(d.active == 0 && scanOrCad d.state))

/-- What the late guards of a group read, so that the row `Selected.placedRow` names runs: both timers at the
time for the HOP group; CRC checking on and a one-byte packet for the receive-done group (assumption log
16). -/
def State.placeLate (s : State) : Selected → State
  | .row _ => s
  | .hopGroup _ => { s with block := { s.block with eventTime := s.now, doneTime := s.now } }
  | .rxDoneGroup _ => { s with radio := { s.radio with crcOn := [0x01], packets := [⟨1, [0x00]⟩] } }

/-- The registers, flags and mask from which the classifier forms the dispatch word, and an INVOKE as the
next stimulus (assumption log 16). -/
def State.placeDw (s : State) (d : Dw) : State :=
  { s with
    block := { s.block with
      state := fetchState d, hopEn := fetchHopEn d, cadEn := d.cadEn, sf := d.sf },
    radio := { s.radio with flags := fetchActive d, mask := 0, raises := [] },
    script := .invoke :: s.script }

/-- An encoded operation placed as the next step's. -/
def State.placeCode (s : State) : Code → State
  | .dw w =>
    match decodeDw w with
    | .ok sel => (s.placeLate sel).placeDw (Dw.ofWord w)
    | .error _ => s.placeDw (Dw.ofWord w)
  | .host w => { s with script := .host w :: s.script }
  | .resetSignal => { s with script := .reset :: s.script }

end Sys2Proof.Machine
end

