-- ==== Sys2Proof/Machine/Step.lean ====
section
/-! DEFINITION. One step of the machine: the next stimulus's agent takes one atomic step (spec/00_scope.md R7,
spec/70_reset_and_hazards.md R284). With no stimulus left the invoker invokes where a trigger holds, and where
none holds it may and need not (spec/45_host.md R214, R215; assumption log 5). -/

namespace Sys2Proof.Machine
open Sys2Proof

/-- `INVOKE`: the prologue, then the operation `Decode(DW)` selects (40_classifier.md R100). -/
def State.invoke (s : State) : Host.Outcome State Fault Refusal :=
  match s.invocationInstr with
  | .ok i => exec i s.prologue
  | .error _ => .refused .noOperation

/-- One host word (45_host.md R205): the transaction it names, or a recorded refusal (R212). -/
def State.hostStep (s : State) (w : BitVec 40) : Host.Outcome State Fault Refusal :=
  match decodeHost w with
  | .ok i => exec i s.startStep
  | .error _ => .next s.startStep.refuse

/-- One stimulus. -/
def State.runStimulus (s : State) (x : Stimulus) : Host.Outcome State Fault Refusal :=
  match x with
  | .invoke => s.invoke
  | .host w => s.hostStep w
  | .reset => exec .reset s.startStep
  | .radio _ | .raiseDuring _ | .setMask _ | .time _ | .answer _ _ | .answerPkt _ | .answerParser _
  | .sink _ _ => .next (s.startStep.stimulate x)

/-- One step of the machine: the next stimulus's, or, where no agent has one to take, a step in which nothing
happens. -/
def step (s : State) : Host.Outcome State Fault Refusal :=
  match s.nextStimulus with
  | some x => s.popped.runStimulus x
  | none => .next s.popped.startStep

/-- The state with an opcode-table word placed where the next step runs it: a dispatch word through the
registers and flags the classifier forms it from, a host word or the reset signal as the next stimulus. -/
def State.withFetchWord (s : State) (nbits w : Nat) : State :=
  match codeOfTableWord nbits w with
  | some c => s.placeCode c
  | none => s

end Sys2Proof.Machine
end

