-- ==== Sys2Proof/Safety.lean ====
section
/-! DEFINITION. What holds of every good state, and the terms the statements are written in: the invariant, the
operations that set the marker (spec/40_classifier.md R112), and counts over an action list. -/

namespace Sys2Proof

/-- The operations that set the soft-event marker: exactly the writers of 40_classifier.md R112. -/
def Instr.setsMarker : Instr → Bool
  | .cadWrap _ | .cadIdle _ | .cadUnk _ | .rxReadfail _ | .tx _ | .hTxRequest => true
  | .hopDoneTo _ | .hopEventTo _ | .hopIdle _ | .init _ | .scanDet _ | .scanDone _ | .scanIdle _
  | .scanUnk _ | .cadDet _ | .cadStep _ | .rxCrcerr _ | .rxOk _ | .rxTimeout _ | .rxHdr _ | .rxIdle _
  | .rxUnk _ | .txdoneOk _ | .txdoneWait _ | .txdoneUnk _ | .badState _ | .hRead _ _ | .hCfgWrite _
  | .hOutWrite _ _ | .hOutPayloadWrite _ | .reset => false

/-- RX_OK, the one operation that delivers (43_rx.md R175). -/
def Instr.delivers : Instr → Bool
  | .rxOk _ => true
  | _ => false

/-- TX, the one operation that starts a transmission (44_tx_txdone.md R195). -/
def Instr.transmits : Instr → Bool
  | .tx _ => true
  | _ => false

/-- The transceiver model of 95_test_vectors.md §0: driver primitives clear no flag and leave the mask. -/
abbrev Params.plainRadio (p : Params) : Prop := p.clears = {} ∧ p.driverMask = .unchanged

end Sys2Proof

namespace Sys2Proof.Machine
open Sys2Proof

/-- Block registers within the bounds the spec states: a legal state code (10_state.md R21), a recognized SF
(41_hopper.md R132), a channel of the plan (10_state.md R24), timers below `P_TIME_MOD` (R33), lengths
within the capacities (R35, R38), and both buffers in canonical form inside their spaces. -/
abbrev Block.wf (p : Params) (b : Block) : Prop :=
  b.state.toNat ≤ 5 ∧ 7 ≤ b.sf.toNat ∧ b.sf.toNat ≤ 12 ∧ b.channel.toNat < p.numChannels ∧
  b.eventTime.toNat < p.timeMod ∧ b.doneTime.toNat < p.timeMod ∧ b.detTime.toNat < p.timeMod ∧
  b.sendTime.toNat < p.timeMod ∧ b.rxTime.toNat < p.timeMod ∧
  b.inLen.toNat ≤ p.inCap ∧ b.outLen.toNat ≤ p.outCap ∧
  Memory.wfBelow p.inCap b.inBuf ∧ Memory.wfBelow p.outCap b.outBuf

/-- The invariant of the machine: legal parameters, a time sample below the modulus (60_exceptions.md R242)
and block registers within their bounds. -/
abbrev State.Inv (s : State) : Prop :=
  s.params.legal ∧ s.now.toNat < s.params.timeMod ∧ s.block.wf s.params

/-- How many START_TX an action list holds. -/
def countStartTx (l : List Action) : Nat := l.countP fun a => a.code == 0x17

/-- How many DELIVER an action list holds. -/
def countDeliver (l : List Action) : Nat := l.countP fun a => a.code == 0x20

/-- Registers and memory other than the block's, the transceiver's and the action list's, unchanged. -/
abbrev State.sameElsewhere (s t : State) : Prop :=
  t.now = s.now ∧ t.parser = s.parser ∧ t.script = s.script ∧ t.reply = s.reply ∧ t.params = s.params

/-- The next step is an invocation: the stimulus says INVOKE, or there is none left and the invoker invokes
(45_host.md R214, R215). -/
abbrev State.invokesNext (s : State) : Prop := s.nextStimulus = some .invoke

/-- No radio step falls between the next actions (20_memory.md R58). -/
abbrev State.radioStill (s : State) : Prop := s.radio.raises = []

/-- The row or group a dispatch word selects, in the words of 30_encoding.md R84 (state by state) and not by
the opcode map. -/
def rowByState (d : Dw) : Selected :=
  if d.hs then .hopGroup d
  else if d.state = stInit then .row (.init d)
  else if d.state = stScan then
    if d.active[0] then .row (.scanDet d)
    else if d.active[2] then .row (.scanDone d)
    else if d.active = 0 then .row (.scanIdle d)
    else .row (.scanUnk d)
  else if d.state = stCad then
    if d.active[0] then .row (.cadDet d)
    else if d.active[2] then (if d.sf.toNat < 12 then .row (.cadStep d) else .row (.cadWrap d))
    else if d.active = 0 then .row (.cadIdle d)
    else .row (.cadUnk d)
  else if d.state = stRx then
    if d.active[6] then .rxDoneGroup d
    else if d.active[7] then .row (.rxTimeout d)
    else if d.active = 0x10 then .row (.rxHdr d)
    else if d.active = 0 then .row (.rxIdle d)
    else .row (.rxUnk d)
  else if d.state = stTx then .row (.tx d)
  else if d.state = stTxDone then
    if d.active[3] then .row (.txdoneOk d)
    else if d.active = 0 then .row (.txdoneWait d)
    else .row (.txdoneUnk d)
  else .row (.badState d)

end Sys2Proof.Machine
end

