-- ==== Sys2Proof/Certificates/Slice0/Obligations.lean ====
section
/-! DEFINITION. The statements for the provers: what the operations of the block do, from the numbered rules of
spec/. Each says in its docstring which rule it formalises. -/

open Sys2Proof Sys2Proof.Machine

/-! ### Encoding and dispatch -/

/-- R82, R83, R90: the decoding of every well-formed operation's code selects that operation, or the group
it is a row of. -/
def Obligations.DecodeOfEncodeSelectsTheOperation : Prop :=
  ∀ i : Instr, i.wellFormed = true → decode (encode i) = .ok i.selected

/-- R84: the opcode map read row by row selects, for every dispatch word the classifier can produce, what
R84 says state by state. -/
def Obligations.OpcodeMapAgreesWithStateByState : Prop :=
  ∀ (b : Block) (a : Byte),
    decodeDw (dispatchWord b a).word = .ok (rowByState (dispatchWord b a))

/-- R84, the spec's own inference from R80, R81 and R83: every invocation selects an operation, a well-formed
row that carries the invocation's dispatch word. Where a receive-done past its CRC check has a packet answer
above P_IN_CAP, R84 sets row 16's range aside and no row's late guard holds: that the invocation selects RX_OK
there, whose packet read then faults (R162, R169), is the model's choice (assumption log 8, DESIGN CHOICE). -/
def Obligations.EveryInvocationSelectsOneOperation : Prop :=
  ∀ s : State, ∃ i : Instr, s.invocationInstr = .ok i ∧ i.wellFormed = true ∧ i.dw? = some s.invocationDw

/-- R80, R83, R90: words written out from the spec's encodings decode to the operations they stand for (the
words of 95_test_vectors.md V-S2, V-K2, V-T10, V-X4 and V-X17). -/
def Obligations.WrittenWordsDecode : Prop :=
  decodeDw 0x71101 = .ok (.row (.scanDet ⟨0x01, 1, false, true, false, 7⟩)) ∧
  decodeDw 0x71204 = .ok (.row (.cadStep ⟨0x04, 2, false, true, false, 7⟩)) ∧
  decodeDw 0x71D40 = .ok (.row (.txdoneUnk ⟨0x40, 5, true, true, false, 7⟩)) ∧
  decodeHost 0x8000000008 = .ok (.hCfgWrite 8) ∧
  decodeHost 0xA0000003AB = .ok (.hOutPayloadWrite 0x3AB)

/-- R100, R108: where the next step is an invocation and it selects `i`, the step is the prologue and then
`i`. The next step is an invocation where the script says INVOKE, and, with no stimulus left, where a
trigger of R215 holds: the interrupt line (R216), the marker (R217) or hop polling (R218). With no stimulus
left and no trigger nothing guarantees one (R214, R215): the step is an invocation or one in which nothing
happens but a draw. (That an invocation follows at once on a trigger where no stimulus is left, and what the
step without one looks like, is the model's choice, assumption log 5.) -/
def Obligations.StepRunsTheSelectedOperation : Prop :=
  ∀ s : State,
    (∀ i : Instr, s.invokesNext → s.popped.invocationInstr = .ok i → step s = exec i s.popped.prologue) ∧
    (∀ rest, s.script = .invoke :: rest → s.invokesNext) ∧
    (s.script = [] → (s.radio.flags &&& ~~~s.radio.mask ≠ 0 ∨ s.block.softEvent = true ∨ s.block.hopEn = true) →
      s.invokesNext) ∧
    (s.script = [] → s.radio.flags &&& ~~~s.radio.mask = 0 → s.block.softEvent = false → s.block.hopEn = false →
      s.invokesNext ∨ step s = .next { s with actions := [], reply := .none, draws := s.draws + 1 })

/-- R205, R212: a host word runs the transaction it names on the state with a fresh action list and reply,
and a host word that names none is refused: the reply records it and the block, the transceiver, the time
and the parameters keep their values. -/
def Obligations.StepRunsTheHostTransaction : Prop :=
  ∀ (s : State) (w : BitVec 40) (rest : List Stimulus), s.script = .host w :: rest →
    (∀ i, decodeHost w = .ok i → step s = exec i ({ s with script := rest } : State).startStep) ∧
    (∀ e, decodeHost w = .error e →
      step s = .next { s with script := rest, actions := [], reply := .refused })

/-- R101 to R105, R107: the prologue clears the marker and writes no other block register; it reads
IRQ_FLAGS, then IRQ_MASK; it logs A_MASKED exactly when a masked cause is pending, and then yields exactly
when hop is enabled, nothing is active and the state is neither Scan nor Cad. With no radio step between its
actions it latches the transceiver's flags and mask as they stand, and changes neither: IRQ_FLAGS and IRQ_MASK
change only as R53 and R54 say, and a register read has no effect on the transceiver, which is R55's default
from general knowledge and the model's choice (assumption log 11, DESIGN CHOICE, unsafe for read effects). -/
def Obligations.PrologueReadsLogsAndYields : Prop :=
  ∀ s : State,
    s.prologue.block = { s.block with softEvent := false } ∧
    s.prologue.actions =
      [.rd .irqFlags s.invocationFlags, .rd .irqMask s.invocationMask] ++
      (if s.invocationFlags &&& ~~~s.invocationMask = s.invocationFlags then [] else [.log .masked]) ++
      (if s.block.hopEn = true ∧ s.invocationFlags &&& ~~~s.invocationMask = 0 ∧
          s.block.state ≠ stScan ∧ s.block.state ≠ stCad then [.yield] else []) ∧
    (s.radioStill → s.invocationFlags = s.radio.flags ∧ s.invocationMask = s.radio.mask ∧
      s.prologue.radio = s.radio) ∧
    s.prologue.now = s.now ∧ s.prologue.parser = s.parser ∧ s.prologue.script = s.script ∧
    s.prologue.params = s.params

/-- R103, R114: a bit is active exactly when it is set and not masked; a full mask leaves nothing active,
and so do clear flags. -/
def Obligations.ActiveIsSetAndUnmasked : Prop :=
  ∀ flags mask : Byte,
    (∀ k : Nat, (activeSet flags mask).getLsbD k = (flags.getLsbD k && !mask.getLsbD k)) ∧
    activeSet flags 0xFF = 0 ∧ activeSet 0 mask = 0 ∧ activeSet flags 0 = flags

/-! ### Hop arbitration and the hopper -/

/-- R122: the HOP group takes the first row whose late guard holds, on the timers as they stand before the
clamp (a timer ahead of the time counts as elapsed 0). -/
def Obligations.HopGroupTakesTheFirstExpiredBudget : Prop :=
  ∀ s : State, s.invocationDw.hs = true →
    s.invocationInstr = .ok (
      if doneWait s.params s.block.sf < s.now.toNat - s.block.doneTime.toNat then .hopDoneTo s.invocationDw
      else if eventWait s.params s.block.state < s.now.toNat - s.block.eventTime.toNat then
        .hopEventTo s.invocationDw
      else .hopIdle s.invocationDw)

/-- R128, R129 (R123, R124): both timeout operations always complete: Scan, the next channel modulo the
number of channels, SF 7, both timers at the time sample, every other block register and both buffers
unchanged; the actions are the prefix's logs and one ARM_SCAN of the new channel at SF 7. -/
def Obligations.HopTimeoutsHopToTheNextChannel : Prop :=
  ∀ (d : Dw) (s : State) (i : Instr), i = .hopDoneTo d ∨ i = .hopEventTo d →
    ∃ t : State, exec i s = .next t ∧
      t.block = { s.block with
        state := stScan, channel := BitVec.ofNat 8 ((s.block.channel.toNat + 1) % s.params.numChannels),
        sf := 7, doneTime := s.now, eventTime := s.now } ∧
      t.actions = s.actions ++
        (if 6 ≤ s.block.state.toNat then [.log .eventWaitUnknown] else []) ++
        (if 7 ≤ s.block.sf.toNat ∧ s.block.sf.toNat ≤ 12 then [] else [.log .sfUnknown]) ++
        [.armScan (BitVec.ofNat 8 ((s.block.channel.toNat + 1) % s.params.numChannels)) 7] ∧
      s.sameElsewhere t

/-- R125, R119: HOP_IDLE always completes: a timer ahead of the time becomes the time, and nothing else of the
block changes; no command reaches the transceiver. -/
def Obligations.HopIdleOnlyClampsTheTimers : Prop :=
  ∀ (d : Dw) (s : State),
    ∃ t : State, exec (.hopIdle d) s = .next t ∧
      t.block = { s.block with
        eventTime := if s.now.toNat < s.block.eventTime.toNat then s.now else s.block.eventTime,
        doneTime := if s.now.toNat < s.block.doneTime.toNat then s.now else s.block.doneTime } ∧
      t.actions = s.actions ++
        (if 6 ≤ s.block.state.toNat then [.log .eventWaitUnknown] else []) ++
        (if 7 ≤ s.block.sf.toNat ∧ s.block.sf.toNat ≤ 12 then [] else [.log .sfUnknown]) ∧
      s.sameElsewhere t ∧ (s.radioStill → t.radio = s.radio)

/-- R127, the spec's own inference from R122 to R125: an invocation hops (selects one of the two timeout operations) only with hop enabled, in Scan or
Cad, with nothing active and after one of the two budgets has run out; and an invocation that does not hop
leaves the channel as it was. -/
def Obligations.NoHopBeforeABudgetRunsOut : Prop :=
  ∀ (s : State) (i : Instr), s.invokesNext → s.popped.invocationInstr = .ok i →
    (∀ d, i = .hopDoneTo d ∨ i = .hopEventTo d →
      s.block.hopEn = true ∧ (s.block.state = stScan ∨ s.block.state = stCad) ∧
      s.popped.invocationActive = 0 ∧
      (doneWait s.params s.block.sf < s.now.toNat - s.block.doneTime.toNat ∨
        eventWait s.params s.block.state < s.now.toNat - s.block.eventTime.toNat)) ∧
    ((∀ d, i ≠ .hopDoneTo d ∧ i ≠ .hopEventTo d) → ∀ t : State, step s = .next t →
      t.block.channel = s.block.channel)

/-- R115, R117, R118: the budgets: the event budget of every state code; the done budget, the base at SF7,
doubled for each SF step above SF7, and the base for an unrecognized SF. -/
def Obligations.BudgetsOfStateAndSpreadingFactor : Prop :=
  ∀ p : Params,
    eventWait p 0 = 0 ∧ eventWait p 1 = p.eventUnit ∧ eventWait p 2 = p.eventUnit ∧
    eventWait p 3 = 8 * p.eventUnit ∧ eventWait p 4 = p.eventUnit ∧ eventWait p 5 = 4 * p.eventUnit ∧
    eventWait p 6 = 0 ∧ eventWait p 7 = 0 ∧
    doneWait p 7 = p.doneBase ∧
    (∀ sf : BitVec 4, 7 ≤ sf.toNat → sf.toNat < 12 → doneWait p (sf + 1) = 2 * doneWait p sf) ∧
    (∀ sf : BitVec 4, sf.toNat < 7 ∨ 12 < sf.toNat → doneWait p sf = p.doneBase)

/-- R119, R120: after the clamp the elapsed time is a natural number between 0 and the time: the difference
where the timer is not ahead, 0 where it is. -/
def Obligations.ElapsedIsNeverNegativeNorHuge : Prop :=
  ∀ t x : Word, elapsed t x ≤ t.toNat ∧ (clamp t x).toNat ≤ t.toNat ∧
    (x.toNat ≤ t.toNat → clamp t x = x ∧ elapsed t x + x.toNat = t.toNat) ∧
    (t.toNat < x.toNat → clamp t x = t ∧ elapsed t x = 0)

/-! ### Init, Scan and Cad -/

/-- R136: INIT is selected by its word in state Init whatever else the word holds, and always completes:
Scan, the marker clear, nothing else of the block; all flags cleared, then the mask. -/
def Obligations.InitClearsAndAdvancesToScan : Prop :=
  (∀ d : Dw, d.word &&& 0x02700 = 0x00000 → decodeDw d.word = .ok (.row (.init d))) ∧
  ∀ (d : Dw) (s : State),
    ∃ t : State, exec (.init d) s = .next t ∧
      t.block = { s.block with softEvent := false, state := stScan } ∧
      t.actions = s.actions ++ [.clrFlags 0xFF, .clrMask] ∧
      t.radio.mask = 0 ∧ (s.radioStill → t.radio.flags = 0) ∧ s.sameElsewhere t

/-- R137, R138, R143: SCAN_DET and CAD_DET are selected by their words and always complete: routing, RSSI
captured (the pending answer where there is one), detection time, flags cleared, single-shot receive, Rx;
every other block register and both buffers unchanged. With plain primitives and no radio step between the
actions the flags end clear and the mask is not touched (R149; that the RSSI read has no effect on the
transceiver is R55's default, assumption log 11). -/
def Obligations.DetectionStartsASingleReceive : Prop :=
  (∀ d : Dw, (d.word &&& 0x02701 = 0x00101 → decodeDw d.word = .ok (.row (.scanDet d))) ∧
    (d.word &&& 0x02701 = 0x00201 → decodeDw d.word = .ok (.row (.cadDet d)))) ∧
  ∀ (d : Dw) (s : State) (i : Instr), i = .scanDet d ∨ i = .cadDet d →
    ∃ (t : State) (r : Byte), exec i s = .next t ∧
      (∀ v l, s.radio.rssi = v :: l → r = v) ∧
      t.block = { s.block with softEvent := false, detRssi := r, detTime := s.now, state := stRx } ∧
      t.actions = s.actions ++ [.setDio 0x01, .rd (.status .rssi) r, .clrFlags 0xFF, .startRxSingle] ∧
      s.sameElsewhere t ∧
      (s.params.plainRadio → s.radioStill → t.radio.flags = 0 ∧ t.radio.mask = s.radio.mask)

/-- R139, R140: SCAN_DONE is selected by its word and always completes: Cad exactly when the RSSI read
exceeds the threshold of the hop setting, unsigned and strictly; `doneTime` at the time sample; mask and
flags end clear; `detRssi` and every other block register and both buffers unchanged. -/
def Obligations.ScanDoneComparesRssiWithTheThreshold : Prop :=
  (∀ d : Dw, d.word &&& 0x02705 = 0x00104 → decodeDw d.word = .ok (.row (.scanDone d))) ∧
  ∀ (d : Dw) (s : State),
    ∃ (t : State) (r : Byte), exec (.scanDone d) s = .next t ∧
      (∀ v l, s.radio.rssi = v :: l → r = v) ∧
      t.block = { s.block with
        state := if (if s.block.hopEn then s.params.rssiLimitHop else s.params.rssiLimit).toNat < r.toNat
          then stCad else s.block.state,
        doneTime := s.now } ∧
      t.actions = s.actions ++ [.opmodeCad, .rd (.status .rssi) r, .clrMask, .clrFlags 0xFF] ∧
      t.radio.flags = 0 ∧ t.radio.mask = 0 ∧ s.sameElsewhere t

/-- R141, R142: SCAN_IDLE clears the marker and emits nothing; SCAN_UNK logs, clears mask and flags, and
writes no block register. Both are selected by their words and always complete. -/
def Obligations.ScanIdleAndUnknownStayInScan : Prop :=
  (∀ d : Dw, (d.word &&& 0x027FF = 0x00100 → decodeDw d.word = .ok (.row (.scanIdle d))) ∧
    (d.word &&& 0x02705 = 0x00100 → d.active ≠ 0 → decodeDw d.word = .ok (.row (.scanUnk d)))) ∧
  (∀ (d : Dw) (s : State),
    exec (.scanIdle d) s = .next { s with block := { s.block with softEvent := false } }) ∧
  ∀ (d : Dw) (s : State),
    ∃ t : State, exec (.scanUnk d) s = .next t ∧ t.block = s.block ∧
      t.actions = s.actions ++ [.log .scanUnknown, .clrMask, .clrFlags 0xFF] ∧
      t.radio.flags = 0 ∧ t.radio.mask = 0 ∧ s.sameElsewhere t

/-- R144: CAD_STEP is selected by its word with SF below 12 and always completes: SF up by one, the marker
clear, `doneTime` at the time sample; SET_RATE at the new SF, the mask cleared, the flags of
`P_CAD_STEP_CLEAR` cleared only where that set is not empty, CAD restarted. -/
def Obligations.CadStepRaisesTheSpreadingFactor : Prop :=
  (∀ d : Dw, d.word &&& 0x02705 = 0x00204 → d.sf.toNat < 12 →
    decodeDw d.word = .ok (.row (.cadStep d))) ∧
  ∀ (d : Dw) (s : State),
    ∃ t : State, exec (.cadStep d) s = .next t ∧
      t.block = { s.block with sf := s.block.sf + 1, softEvent := false, doneTime := s.now } ∧
      t.actions = s.actions ++ [.setRate (s.block.sf + 1) s.params.cadRateFlags, .clrMask] ++
        (if s.params.cadStepClear = 0x00 then [] else [.clrFlags s.params.cadStepClear]) ++ [.opmodeCad] ∧
      s.sameElsewhere t ∧
      (s.params.plainRadio → s.radioStill →
        t.radio.mask = 0 ∧ t.radio.flags = s.radio.flags &&& ~~~s.params.cadStepClear)

/-- R145: CAD_WRAP is selected by its word with SF at 12 or above and always completes: SF 7, the marker
set, Scan, `doneTime` at the time sample, the channel kept; ARM_SCAN of the channel at SF 7, then mask and
flags cleared. -/
def Obligations.CadWrapRescansAtSf7 : Prop :=
  (∀ d : Dw, d.word &&& 0x02705 = 0x00204 → 12 ≤ d.sf.toNat →
    decodeDw d.word = .ok (.row (.cadWrap d))) ∧
  ∀ (d : Dw) (s : State),
    ∃ t : State, exec (.cadWrap d) s = .next t ∧
      t.block = { s.block with sf := 7, softEvent := true, state := stScan, doneTime := s.now } ∧
      t.actions = s.actions ++ [.armScan s.block.channel 7, .clrMask, .clrFlags 0xFF] ∧
      t.radio.flags = 0 ∧ t.radio.mask = 0 ∧ s.sameElsewhere t

/-- R146, R147: CAD_IDLE logs and sets the marker and nothing else; CAD_UNK logs, rescans at SF 7, clears
mask and flags, sets the marker and goes to Scan, with `doneTime` kept. Both are selected by their words
and always complete. -/
def Obligations.CadIdleAndUnknownSetTheMarker : Prop :=
  (∀ d : Dw, (d.word &&& 0x027FF = 0x00200 → decodeDw d.word = .ok (.row (.cadIdle d))) ∧
    (d.word &&& 0x02705 = 0x00200 → d.active ≠ 0 → decodeDw d.word = .ok (.row (.cadUnk d)))) ∧
  (∀ (d : Dw) (s : State),
    ∃ t : State, exec (.cadIdle d) s = .next t ∧ t.block = { s.block with softEvent := true } ∧
      t.actions = s.actions ++ [.log .cadIdle] ∧ s.sameElsewhere t ∧ (s.radioStill → t.radio = s.radio)) ∧
  ∀ (d : Dw) (s : State),
    ∃ t : State, exec (.cadUnk d) s = .next t ∧
      t.block = { s.block with sf := 7, softEvent := true, state := stScan } ∧
      t.actions = s.actions ++ [.log .cadUnknown, .armScan s.block.channel 7, .clrMask, .clrFlags 0xFF] ∧
      t.radio.flags = 0 ∧ t.radio.mask = 0 ∧ s.sameElsewhere t

/-- R148: an operation that starts and ends in Cad changes SF only as CAD_STEP, by adding one; so a Cad visit
never skips or lowers an SF. -/
def Obligations.CadVisitOnlyStepsTheSpreadingFactorUp : Prop :=
  ∀ (i : Instr) (s t : State), exec i s = .next t → s.block.state = stCad → t.block.state = stCad →
    t.block.sf ≠ s.block.sf → (∃ d, i = .cadStep d) ∧ t.block.sf = s.block.sf + 1

/-! ### Rx -/

/-- R162, R163, R83: a receive-done in Rx takes RX_CRCERR where the CRC-enable answer's bit 0 and the active
crc-error bit are both 1; else RX_READFAIL where the packet length is not positive, RX_OK where it is 1 to
P_IN_CAP, and above P_IN_CAP the invocation faults (R169; that the model lets RX_OK's packet read raise that
fault is assumption log 8). CRC_ON and the length are what the transceiver answers: the answers pending for
them where there are such answers, else draws. -/
def Obligations.ReceiveDoneTakesTheFirstRowThatHolds : Prop :=
  ∀ s : State, s.block.state = stRx → s.invocationActive[6] = true →
    ∃ (c : Byte) (n : Int), c = s.prologue.statusValue .crcOn ∧ n = s.prologue.rxLength ∧
      (∀ v l, s.radio.crcOn = v :: l → c = v) ∧
      (∀ p l, s.radio.packets = p :: l → n = p.n.toInt) ∧
      (c.getLsbD 0 = true → s.invocationActive[5] = true →
        s.invocationInstr = .ok (.rxCrcerr s.invocationDw)) ∧
      (c.getLsbD 0 = false ∨ s.invocationActive[5] = false →
        (n ≤ 0 → s.invocationInstr = .ok (.rxReadfail s.invocationDw)) ∧
        (1 ≤ n → n ≤ s.params.inCap → s.invocationInstr = .ok (.rxOk s.invocationDw)) ∧
        ((s.params.inCap : Int) < n → s.invoke = .fault .readOverlen))

/-- R164, R161: RX_CRCERR always completes: the payload is not read, mask and the receive flags are cleared,
and the block resumes: SF 7 and ARM_SCAN into Scan with hop or CAD enabled, else continuous receive in Rx;
no timer, no staging byte and no other register changes. With plain primitives and no radio step between the
actions the mask ends 0 and of the flags bits 7:4 are cleared and bits 3:0 kept (that the CRC_ON read has no
effect on the transceiver is R55's default, assumption log 11). -/
def Obligations.CrcErrorResumesWithoutReading : Prop :=
  ∀ (d : Dw) (s : State),
    ∃ (t : State) (c : Byte), exec (.rxCrcerr d) s = .next t ∧
      (∀ v l, s.radio.crcOn = v :: l → c = v) ∧
      t.block = { s.block with
        state := if s.block.hopEn || s.block.cadEn then stScan else stRx,
        sf := if s.block.hopEn || s.block.cadEn then 7 else s.block.sf } ∧
      t.actions = s.actions ++ [.rd (.status .crcOn) c, .log .rxCrc, .clrMask, .clrFlags 0xF0,
        if s.block.hopEn || s.block.cadEn then .armScan s.block.channel 7 else .startRxCont] ∧
      s.sameElsewhere t ∧
      (s.params.plainRadio → s.radioStill →
        t.radio.flags = s.radio.flags &&& 0x0F ∧ t.radio.mask = 0)

/-- R165, R167: RX_READFAIL completes for every length within the contract: `rxTime` at the time sample,
`inLen` 0, the marker set, Scan, SF kept; only the mask is cleared; every staging byte at or above the
capacity and all of OUT_BUF read as before (IN_BUF below the capacity is unspecified, R56). That the CRC_ON
read has no effect on the flags is R55's default (assumption log 11). -/
def Obligations.FailedReadGoesToScanWithTheFlagsKept : Prop :=
  ∀ (d : Dw) (s : State), Memory.wfBelow s.params.inCap s.block.inBuf → s.rxLength ≤ s.params.inCap →
    ∃ (t : State) (c : Byte) (n : Half) (bytes : List Byte) (buf : Memory),
      exec (.rxReadfail d) s = .next t ∧ (n.toInt = s.rxLength) ∧
      (∀ v l, s.radio.crcOn = v :: l → c = v) ∧
      t.block = { s.block with
        rxTime := s.now, inLen := 0, softEvent := true, state := stScan, inBuf := buf } ∧
      (∀ j, s.params.inCap ≤ j → memRead buf j = memRead s.block.inBuf j) ∧
      t.actions = s.actions ++
        [.rd (.status .crcOn) c, .readPacket n bytes, .log .rxReadfail, .clrMask] ∧
      s.sameElsewhere t ∧ t.radio.mask = 0 ∧
      (s.params.plainRadio → s.radioStill → t.radio.flags = s.radio.flags)

/-- R166, R161, R167, R170 to R174: RX_OK completes for every positive length within the contract, from the
pending answers: the packet's bytes in IN_BUF from index 0 on and 0 above them up to the capacity, its
length, decoded SNR, corrected RSSI and SF; exactly the record of those five handed to the parser; the
resumed state and SF; mask and flags cleared last; `eventTime` and `rxTime` at the time sample, `doneTime`
kept. OUT_BUF and every other register are unchanged. -/
def Obligations.GoodPacketIsStagedAndDelivered : Prop :=
  ∀ (d : Dw) (s : State) (c snr rssi sfc : Byte) (cs snrs rssis sfcs : List Byte)
    (p : PktAnswer) (ps : List PktAnswer) (k : Int) (ks : List Int),
    Memory.wfBelow s.params.inCap s.block.inBuf →
    s.radio.crcOn = c :: cs → s.radio.packets = p :: ps → s.radio.pktSnr = snr :: snrs →
    s.radio.pktRssi = rssi :: rssis → s.radio.sfCfg = sfc :: sfcs → s.parser = k :: ks →
    0 < p.n.toInt → p.n.toInt ≤ s.params.inCap → s.params.inCap ≤ 256 → p.bytes.length = p.n.toNat →
    ∃ (t : State) (buf : Memory), exec (.rxOk d) s = .next t ∧
      (∀ j, memRead buf j =
        if j < p.n.toNat then p.bytes.getD j 0
        else if j < s.params.inCap then 0 else memRead s.block.inBuf j) ∧
      t.block = { s.block with
        rxTime := s.now, inBuf := buf, inLen := p.n,
        inSnr := snrDecode s.params.snrRound snr,
        inRssi := BitVec.ofInt 16 ((rssi.toNat : Int) +
          if s.block.xcvrModel then s.params.rssiCorrB else s.params.rssiCorrA),
        inSf := sfc.extractLsb' 0 4,
        state := if s.block.hopEn || s.block.cadEn then stScan else stRx,
        sf := if s.block.hopEn || s.block.cadEn then 7 else s.block.sf,
        eventTime := s.now, softEvent := false } ∧
      t.actions = s.actions ++
        [.rd (.status .crcOn) c, .readPacket p.n p.bytes, .rd (.status .pktSnr) snr,
          .rd (.status .pktRssi) rssi, .rd (.status .sfCfg) sfc,
          .deliver ⟨p.bytes, p.n, t.block.inSnr, t.block.inRssi, t.block.inSf⟩ k,
          .log .parserResult,
          if s.block.hopEn || s.block.cadEn then .armScan s.block.channel 7 else .startRxCont,
          .clrMask, .clrFlags 0xFF] ∧
      t.radio.flags = 0 ∧ t.radio.mask = 0 ∧ t.parser = ks ∧ t.radio.packets = ps ∧
      t.now = s.now ∧ t.script = s.script ∧ t.reply = s.reply ∧ t.params = s.params

/-- R166, R167, R170 to R174, R55, R56: RX_OK also completes where answers are draws, for every positive length
within the contract: the five answers are what the transceiver and the parser give at those reads (a pending
answer or a draw); IN_BUF holds the packet's bytes from index 0 on and 0 above them up to the capacity; the
metadata registers hold the answers decoded; the record delivered is made of those; and neither OUT_BUF nor
any outbound register, configuration bit, channel or other timer is changed. -/
def Obligations.RxOkCompletesOnDrawnAnswers : Prop :=
  ∀ (d : Dw) (s : State), Memory.wfBelow s.params.inCap s.block.inBuf →
    0 < s.rxLength → s.rxLength ≤ s.params.inCap → s.params.inCap ≤ 256 →
    ∃ (t : State) (n : Half) (bytes : List Byte) (snr rssi sfc : Byte) (k : Int) (buf : Memory),
      exec (.rxOk d) s = .next t ∧ n.toInt = s.rxLength ∧
      bytes = (List.range s.rxLength.toNat).map s.rxStaged.packetByte ∧
      snr = s.rxRead.statusValue .pktSnr ∧
      rssi = (s.rxRead.readStatus .pktSnr).statusValue .pktRssi ∧
      sfc = ((s.rxRead.readStatus .pktSnr).readStatus .pktRssi).statusValue .sfCfg ∧
      k = (((s.rxRead.readStatus .pktSnr).readStatus .pktRssi).readStatus .sfCfg).parserValue ∧
      (∀ v l, s.radio.pktSnr = v :: l → snr = v) ∧ (∀ v l, s.radio.pktRssi = v :: l → rssi = v) ∧
      (∀ v l, s.radio.sfCfg = v :: l → sfc = v) ∧ (∀ v l, s.parser = v :: l → k = v) ∧
      (∀ j, memRead buf j =
        if j < s.rxLength.toNat then s.rxStaged.packetByte j
        else if j < s.params.inCap then 0 else memRead s.block.inBuf j) ∧
      t.block = { s.block with
        rxTime := s.now, inBuf := buf, inLen := n,
        inSnr := snrDecode s.params.snrRound snr,
        inRssi := BitVec.ofInt 16 ((rssi.toNat : Int) +
          if s.block.xcvrModel then s.params.rssiCorrB else s.params.rssiCorrA),
        inSf := sfc.extractLsb' 0 4,
        state := if s.block.hopEn || s.block.cadEn then stScan else stRx,
        sf := if s.block.hopEn || s.block.cadEn then 7 else s.block.sf,
        eventTime := s.now, softEvent := false } ∧
      t.actions = s.actions ++
        [.rd (.status .crcOn) (s.statusValue .crcOn), .readPacket n bytes, .rd (.status .pktSnr) snr,
          .rd (.status .pktRssi) rssi, .rd (.status .sfCfg) sfc,
          .deliver ⟨bytes, n, t.block.inSnr, t.block.inRssi, t.block.inSf⟩ k,
          .log .parserResult,
          if s.block.hopEn || s.block.cadEn then .armScan s.block.channel 7 else .startRxCont,
          .clrMask, .clrFlags 0xFF] ∧
      t.radio.flags = 0 ∧ t.radio.mask = 0 ∧
      t.now = s.now ∧ t.script = s.script ∧ t.reply = s.reply ∧ t.params = s.params

/-- R169: a packet read that answers more than `P_IN_CAP` faults with F_READ_OVERLEN, in an invocation that
runs the receive-done group past its CRC check: CRC checking off, or no crc-error bit active (R162). -/
def Obligations.OverlongReadFaults : Prop :=
  ∀ (s : State) (c : Byte) (cs : List Byte) (p : PktAnswer) (ps : List PktAnswer),
    s.invokesNext → s.block.state = stRx → s.popped.invocationActive[6] = true →
    s.radio.crcOn = c :: cs → (c.getLsbD 0 = false ∨ s.popped.invocationActive[5] = false) →
    s.radio.packets = p :: ps → (s.params.inCap : Int) < p.n.toInt → step s = .fault .readOverlen

/-- R176: RX_TIMEOUT is selected by its word and always completes: mask and flags cleared, then in hop or CAD
mode a log, SF 7, ARM_SCAN and Scan, else continuous receive with the state kept; both timers at the time
sample. With plain primitives and no radio step between the actions flags and mask end 0. -/
def Obligations.RxTimeoutRescansOrRearms : Prop :=
  (∀ d : Dw, d.word &&& 0x027C0 = 0x00380 → decodeDw d.word = .ok (.row (.rxTimeout d))) ∧
  ∀ (d : Dw) (s : State),
    ∃ t : State, exec (.rxTimeout d) s = .next t ∧
      t.block = { s.block with
        state := if s.block.hopEn || s.block.cadEn then stScan else s.block.state,
        sf := if s.block.hopEn || s.block.cadEn then 7 else s.block.sf,
        eventTime := s.now, doneTime := s.now } ∧
      t.actions = s.actions ++ [.clrMask, .clrFlags 0xFF] ++
        (if s.block.hopEn || s.block.cadEn then [.log .rxTimeout, .armScan s.block.channel 7]
          else [.startRxCont]) ∧
      s.sameElsewhere t ∧
      (s.params.plainRadio → s.radioStill → t.radio.flags = 0 ∧ t.radio.mask = 0)

/-- R177, R178, R179: RX_HDR and RX_IDLE change nothing at all; RX_UNK logs and writes no block register and
clears no flag and no mask. All three are selected by their words and always complete. -/
def Obligations.RxWaitsQuietly : Prop :=
  (∀ d : Dw, (d.word &&& 0x027FF = 0x00310 → decodeDw d.word = .ok (.row (.rxHdr d))) ∧
    (d.word &&& 0x027FF = 0x00300 → decodeDw d.word = .ok (.row (.rxIdle d))) ∧
    (d.word &&& 0x027C0 = 0x00300 → d.active ≠ 0 → d.active ≠ 0x10 →
      decodeDw d.word = .ok (.row (.rxUnk d)))) ∧
  (∀ (d : Dw) (s : State), exec (.rxHdr d) s = .next s ∧ exec (.rxIdle d) s = .next s) ∧
  ∀ (d : Dw) (s : State),
    ∃ t : State, exec (.rxUnk d) s = .next t ∧ t.block = s.block ∧
      t.actions = s.actions ++ [.log .rxUnknown] ∧ s.sameElsewhere t ∧
      (s.radioStill → t.radio = s.radio)

/-- R170: the decoded SNR is the raw field as two's complement divided by 4, rounded down or toward zero, and
lies in -32..31. -/
def Obligations.SnrIsTheRawFieldDividedByFour : Prop :=
  ∀ raw : Byte,
    (snrDecode .floor raw).toInt = raw.toInt.fdiv 4 ∧ (snrDecode .trunc raw).toInt = raw.toInt.tdiv 4 ∧
    -32 ≤ (snrDecode .floor raw).toInt ∧ (snrDecode .floor raw).toInt ≤ 31 ∧
    -32 ≤ (snrDecode .trunc raw).toInt ∧ (snrDecode .trunc raw).toInt ≤ 31

/-- R171, R14: under legal corrections the stored packet RSSI, read as two's complement, is exactly the raw
byte plus the fitted model's correction. -/
def Obligations.PacketRssiIsExact : Prop :=
  ∀ (p : Params) (model : Bool) (raw : Byte), p.legal →
    (packetRssi p model raw).toInt =
      (raw.toNat : Int) + (if model then p.rssiCorrB else p.rssiCorrA)

/-! ### Tx, TxDone and the unrecognized state -/

/-- R186, R187, R188, R194: TX is selected by its word in state Tx and always completes: TxDone, the marker
set, `sendTime` at the time sample; the forced-transition log exactly where nothing is active, mask and
flags cleared, and one START_TX of the outbound slot, whose every field is the slot's own; the slot is
kept. With plain primitives and no radio step between the actions flags and mask end 0. -/
def Obligations.TxSendsTheOutboundSlotOnce : Prop :=
  (∀ d : Dw, d.word &&& 0x02700 = 0x00400 → decodeDw d.word = .ok (.row (.tx d))) ∧
  ∀ (d : Dw) (s : State),
    ∃ t : State, exec (.tx d) s = .next t ∧
      t.block = { s.block with sendTime := s.now, softEvent := true, state := stTxDone } ∧
      t.actions = s.actions ++ (if d.active = 0 then [.log .txForced] else []) ++
        [.clrMask, .clrFlags 0xFF, .startTx {
          payload := (List.range s.block.outLen.toNat).map (memRead s.block.outBuf),
          length := s.block.outLen, timestamp := s.block.outTmst, sf := s.block.outSf,
          power := s.block.outPower, freq := s.block.outFreq, crc := s.block.outCrc,
          iqInvert := s.block.outIq }] ∧
      s.sameElsewhere t ∧
      (s.params.plainRadio → s.radioStill → t.radio.flags = 0 ∧ t.radio.mask = 0)

/-- R189, R161: TXDONE_OK is selected by its word and always completes: mask and flags cleared, the marker
clear, and the block resumes; no timer changes. With plain primitives and no radio step between the actions
flags and mask end 0. -/
def Obligations.TransmitDoneResumes : Prop :=
  (∀ d : Dw, d.word &&& 0x02708 = 0x00508 → decodeDw d.word = .ok (.row (.txdoneOk d))) ∧
  ∀ (d : Dw) (s : State),
    ∃ t : State, exec (.txdoneOk d) s = .next t ∧
      t.block = { s.block with
        softEvent := false,
        state := if s.block.hopEn || s.block.cadEn then stScan else stRx,
        sf := if s.block.hopEn || s.block.cadEn then 7 else s.block.sf } ∧
      t.actions = s.actions ++ [.clrMask, .clrFlags 0xFF,
        if s.block.hopEn || s.block.cadEn then .armScan s.block.channel 7 else .startRxCont] ∧
      s.sameElsewhere t ∧
      (s.params.plainRadio → s.radioStill → t.radio.flags = 0 ∧ t.radio.mask = 0)

/-- R191: TXDONE_WAIT is selected by its word and always completes: `sendTime` clamped to the time, nothing
else of the block changed; the log and the receiver's re-arm exactly where more than the deadline has
elapsed. -/
def Obligations.TxdoneWaitRearmsAfterTheDeadline : Prop :=
  (∀ d : Dw, d.word &&& 0x027FF = 0x00500 → decodeDw d.word = .ok (.row (.txdoneWait d))) ∧
  ∀ (d : Dw) (s : State),
    ∃ t : State, exec (.txdoneWait d) s = .next t ∧
      t.block = { s.block with
        sendTime := if s.now.toNat < s.block.sendTime.toNat then s.now else s.block.sendTime } ∧
      t.actions = s.actions ++
        (if s.params.txDeadline < s.now.toNat - s.block.sendTime.toNat
          then [.log .txDeadline, .startRxCont] else []) ∧
      s.sameElsewhere t

/-- R192: once the deadline has passed, a later TXDONE_WAIT re-arms again, as long as no time runs back and
nothing wrote the block in between. -/
def Obligations.DeadlineRearmRepeats : Prop :=
  ∀ (d e : Dw) (s t u v : State), exec (.txdoneWait d) s = .next t →
    s.params.txDeadline < s.now.toNat - s.block.sendTime.toNat →
    u.block = t.block → u.params = t.params → s.now.toNat ≤ u.now.toNat →
    exec (.txdoneWait e) u = .next v →
    v.block = t.block ∧ v.actions = u.actions ++ [.log .txDeadline, .startRxCont]

/-- R190: TXDONE_UNK is selected by its word with an active cause and always completes: the log, mask and
flags cleared, the marker clear, Scan; SF and every timer kept, and no scan armed. -/
def Obligations.UnexpectedCauseInTxDoneGoesToScan : Prop :=
  (∀ d : Dw, d.word &&& 0x02708 = 0x00500 → d.active ≠ 0 →
    decodeDw d.word = .ok (.row (.txdoneUnk d))) ∧
  ∀ (d : Dw) (s : State),
    ∃ t : State, exec (.txdoneUnk d) s = .next t ∧
      t.block = { s.block with softEvent := false, state := stScan } ∧
      t.actions = s.actions ++ [.log .txdoneUnknown, .clrMask, .clrFlags 0xFF] ∧
      t.radio.flags = 0 ∧ t.radio.mask = 0 ∧ s.sameElsewhere t

/-- R193, R161: BAD_STATE is selected by its word in state codes 6 and 7 and always completes: the log, the
block resumes, mask and flags cleared, `eventTime` at the time sample. -/
def Obligations.BadStateRecovers : Prop :=
  (∀ d : Dw, d.word &&& 0x02600 = 0x00600 → decodeDw d.word = .ok (.row (.badState d))) ∧
  ∀ (d : Dw) (s : State),
    ∃ t : State, exec (.badState d) s = .next t ∧
      t.block = { s.block with
        state := if s.block.hopEn || s.block.cadEn then stScan else stRx,
        sf := if s.block.hopEn || s.block.cadEn then 7 else s.block.sf,
        eventTime := s.now } ∧
      t.actions = s.actions ++ [.log .badState,
        if s.block.hopEn || s.block.cadEn then .armScan s.block.channel 7 else .startRxCont,
        .clrMask, .clrFlags 0xFF] ∧
      t.radio.flags = 0 ∧ t.radio.mask = 0 ∧ s.sameElsewhere t

/-! ### Host transactions and reset -/

/-- R206, R90, R91: H_READ always completes and changes nothing but the reply: a payload byte, zero-extended,
for an index inside the space; a register's word for a readable register of the map with DATA 0; a refusal
otherwise. -/
def Obligations.HostReadReturnsTheRegister : Prop :=
  ∀ (reg : BitVec 7) (data : Word) (s : State),
    (reg = 0x20 →
      exec (.hRead reg data) s = .next { s with reply := (
        if data.extractLsb' 16 16 = 0 ∧ data.extractLsb' 0 8 = 0 ∧
            (data.extractLsb' 8 8).toNat < s.params.outCap then
          .value ((memRead s.block.outBuf (data.extractLsb' 8 8).toNat).zeroExtend 32)
        else .refused) }) ∧
    (reg = 0x21 →
      exec (.hRead reg data) s = .next { s with reply := (
        if data.extractLsb' 16 16 = 0 ∧ data.extractLsb' 0 8 = 0 ∧
            (data.extractLsb' 8 8).toNat < s.params.inCap then
          .value ((memRead s.block.inBuf (data.extractLsb' 8 8).toNat).zeroExtend 32)
        else .refused) }) ∧
    (reg ≠ 0x20 → reg ≠ 0x21 →
      exec (.hRead reg data) s = .next { s with reply := (
        if data = 0 ∧ reg ∈ ([0x00, 0x01, 0x03, 0x04, 0x05, 0x06, 0x07, 0x08, 0x09, 0x10, 0x11, 0x12, 0x13,
            0x18, 0x19, 0x1A, 0x1B, 0x1C, 0x1D] : List (BitVec 7)) then
          .value (registerWord s.block reg)
        else .refused) })

/-- R91 to R93, R95: what the host registers read as: the fields of CTRL, STATUS and OUT_FLAGS bit by bit,
reserved bits 0, and each register at its index. -/
def Obligations.HostRegistersHoldTheirFields : Prop :=
  ∀ b : Block,
    (∀ k : Nat, (registerWord b 0x00).getLsbD k =
      ((k = 0 ∧ b.hopEn = true) ∨ (k = 1 ∧ b.cadEn = true) ∨ (k = 2 ∧ b.xcvrModel = true) : Bool)) ∧
    (registerWord b 0x01).toNat = b.state.toNat + 8 * b.softEvent.toNat + 16 * b.sf.toNat ∧
    (∀ k : Nat, (registerWord b 0x1D).getLsbD k =
      ((k = 0 ∧ b.outCrc = true) ∨ (k = 1 ∧ b.outIq = true) : Bool)) ∧
    (registerWord b 0x03).toNat = b.channel.toNat ∧ registerWord b 0x04 = b.eventTime ∧
    registerWord b 0x05 = b.doneTime ∧ registerWord b 0x06 = b.detTime ∧
    registerWord b 0x07 = b.sendTime ∧ registerWord b 0x08 = b.rxTime ∧
    (registerWord b 0x09).toNat = b.detRssi.toNat ∧ (registerWord b 0x10).toNat = b.inLen.toNat ∧
    (registerWord b 0x11).toNat = b.inSnr.toNat ∧ (registerWord b 0x12).toNat = b.inRssi.toNat ∧
    (registerWord b 0x13).toNat = b.inSf.toNat ∧ (registerWord b 0x18).toNat = b.outLen.toNat ∧
    registerWord b 0x19 = b.outTmst ∧ (registerWord b 0x1A).toNat = b.outSf.toNat ∧
    (registerWord b 0x1B).toNat = b.outPower.toNat ∧ registerWord b 0x1C = b.outFreq

/-- R207: H_CFG_WRITE always completes: the three configuration bits from DATA, and the dispatch word of the
next invocation, whatever the other agents do before it, carries the new hop and CAD bits; or a refusal where
DATA[31:3] is not 0. -/
def Obligations.ConfigurationWriteSetsTheThreeBits : Prop :=
  ∀ (data : Word) (s : State),
    ∃ t : State, exec (.hCfgWrite data) s = .next t ∧
      (data.toNat < 8 →
        t = { s with
          block := { s.block with
            hopEn := data.getLsbD 0, cadEn := data.getLsbD 1, xcvrModel := data.getLsbD 2 },
          reply := .accepted } ∧
        ∀ u : State, u.block = t.block →
          u.invocationDw.hopEn = data.getLsbD 0 ∧ u.invocationDw.cadEn = data.getLsbD 1) ∧
      (8 ≤ data.toNat → t = { s with reply := .refused })

/-- R208: H_OUT_WRITE, indices 0x18 to 0x1D, always completes: outside Tx the one register named, where DATA
fits it and OUT_LEN is within the capacity; a refusal otherwise. -/
def Obligations.OutboundWriteSetsOneRegister : Prop :=
  ∀ (reg : BitVec 7) (data : Word) (s : State), 0x18 ≤ reg.toNat → reg.toNat ≤ 0x1D →
    ∃ t : State, exec (.hOutWrite reg data) s = .next t ∧
      ((s.block.state = stTx ∨ (reg = 0x18 ∧ s.params.outCap < data.toNat) ∨
          (reg = 0x1A ∧ 16 ≤ data.toNat) ∨ (reg = 0x1B ∧ 256 ≤ data.toNat) ∨
          (reg = 0x1D ∧ 4 ≤ data.toNat)) → t = { s with reply := .refused }) ∧
      (s.block.state ≠ stTx →
        (reg = 0x18 → data.toNat ≤ s.params.outCap → t = { s with
          block := { s.block with outLen := data.setWidth 16 }, reply := .accepted }) ∧
        (reg = 0x19 → t = { s with block := { s.block with outTmst := data }, reply := .accepted }) ∧
        (reg = 0x1A → data.toNat < 16 → t = { s with
          block := { s.block with outSf := data.setWidth 4 }, reply := .accepted }) ∧
        (reg = 0x1B → data.toNat < 256 → t = { s with
          block := { s.block with outPower := data.setWidth 8 }, reply := .accepted }) ∧
        (reg = 0x1C → t = { s with block := { s.block with outFreq := data }, reply := .accepted }) ∧
        (reg = 0x1D → data.toNat < 4 → t = { s with
          block := { s.block with outCrc := data.getLsbD 0, outIq := data.getLsbD 1 },
          reply := .accepted }))

/-- R209, R47: H_OUT_PAYLOAD_WRITE always completes: outside Tx, for an index inside the space and no other
bit set, the one byte of OUT_BUF, every other byte of OUT_BUF reading as before and nothing else of the
block changed; a refusal otherwise. -/
def Obligations.PayloadWriteSetsOneByte : Prop :=
  ∀ (data : Word) (s : State), Memory.wf s.block.outBuf →
    ∃ t : State, exec (.hOutPayloadWrite data) s = .next t ∧
      (s.block.state ≠ stTx → data.extractLsb' 16 16 = 0 → (data.extractLsb' 8 8).toNat < s.params.outCap →
        ∃ buf : Memory, t = { s with block := { s.block with outBuf := buf }, reply := .accepted } ∧
          ∀ j, memRead buf j =
            if j = (data.extractLsb' 8 8).toNat then data.extractLsb' 0 8 else memRead s.block.outBuf j) ∧
      ((s.block.state = stTx ∨ data.extractLsb' 16 16 ≠ 0 ∨
          s.params.outCap ≤ (data.extractLsb' 8 8).toNat) → t = { s with reply := .refused })

/-- R210, R211: H_TX_REQUEST always completes: Tx and the marker set, or, in Tx, a refusal with no effect. -/
def Obligations.TxRequestClaimsTheSlot : Prop :=
  ∀ s : State,
    exec .hTxRequest s = .next (
      if s.block.state = stTx then { s with reply := .refused }
      else { s with block := { s.block with state := stTx, softEvent := true }, reply := .accepted })

/-- R195, R210: the invocation that follows an accepted H_TX_REQUEST runs TX, whatever is active then. -/
def Obligations.TxRequestIsFollowedByTx : Prop :=
  ∀ s t : State, exec .hTxRequest s = .next t → s.block.state ≠ stTx →
    ∃ d : Dw, t.invocationInstr = .ok (.tx d)

/-- R232, R222: a host transaction that is refused changes nothing but the reply; and in state Tx every
outbound write and request is refused. -/
def Obligations.RefusedTransactionsHaveNoEffect : Prop :=
  (∀ (i : Instr) (s t : State), i.dw? = none → s.reply = .none → exec i s = .next t →
    t.reply = .refused → t = { s with reply := .refused }) ∧
  ∀ (reg : BitVec 7) (data : Word) (s : State), s.block.state = stTx →
    exec (.hOutWrite reg data) s = .next { s with reply := .refused } ∧
    exec (.hOutPayloadWrite data) s = .next { s with reply := .refused } ∧
    exec .hTxRequest s = .next { s with reply := .refused }

/-- R260, R262, R20: RESET always completes: the registers with a stated reset value take it, from any
state; unspecified timers lie below the modulus, `outLen` within its capacity and the buffers inside their
spaces; the transceiver, the time source, the parser and the log sink are untouched, and nothing is
emitted. -/
def Obligations.ResetRestoresTheStatedValues : Prop :=
  ∀ s : State, s.params.legal →
    ∃ t : State, exec .reset s = .next t ∧
      t.block.state = stInit ∧ t.block.softEvent = false ∧ t.block.sf = 7 ∧ t.block.channel = 0 ∧
      t.block.hopEn = s.params.hopEnReset ∧ t.block.cadEn = s.params.cadEnReset ∧
      t.block.xcvrModel = s.params.xcvrModelReset ∧ t.block.inLen = 0 ∧
      t.block.wf s.params ∧
      t.radio = s.radio ∧ t.actions = s.actions ∧ t.sink = s.sink ∧ s.sameElsewhere t

/-- R261, R93: right after reset the block is in Init with the marker clear, SF 7, channel 0, no inbound
bytes and the configuration parameters; STATUS reads 0x70, and the first invocation runs INIT. -/
def Obligations.ResetStateStartsInInit : Prop :=
  State.reset.block.state = stInit ∧ State.reset.block.softEvent = false ∧ State.reset.block.sf = 7 ∧
  State.reset.block.channel = 0 ∧ State.reset.block.inLen = 0 ∧
  State.reset.block.hopEn = Config.params.hopEnReset ∧
  State.reset.block.cadEn = Config.params.cadEnReset ∧
  State.reset.block.xcvrModel = Config.params.xcvrModelReset ∧
  registerWord State.reset.block 0x01 = 0x70 ∧
  ∃ d : Dw, State.reset.invocationInstr = .ok (.init d)

/-! ### The whole machine -/

/-- R21, R24, R33, R35, R38, R45, R132: every step keeps the invariant: the state code legal, the SF
recognized, the channel in the plan, the timers below the modulus, the lengths within the capacities, both
buffers canonical inside their spaces. -/
def Obligations.EveryStepKeepsTheInvariant : Prop :=
  ∀ s t : State, s.Inv → step s = .next t → t.Inv

/-- The invariant holds at reset. (The unspecified registers' zeros are the model's choice, assumption log 1;
the invariant asks of them only the bounds R33 and R38 state.) -/
def Obligations.ResetMeetsTheInvariant : Prop := State.reset.Inv

/-- R233: no step is refused, and the only fault is F_READ_OVERLEN, in Rx. -/
def Obligations.StepsOnlyFaultOnAnOverlongRead : Prop :=
  ∀ s : State, (∀ r, step s ≠ .refused r) ∧
    (∀ f, step s = .fault f → f = .readOverlen ∧ s.block.state = stRx)

/-- R21: no operation writes state code 6 or 7. -/
def Obligations.NoOperationWritesAnUnrecognizedState : Prop :=
  ∀ (i : Instr) (s t : State), exec i s = .next t →
    t.block.state = s.block.state ∨ t.block.state.toNat ≤ 5

/-- R112: an operation that turns the marker on is one of the six writers R112 lists. -/
def Obligations.MarkerIsSetOnlyByTheListedWriters : Prop :=
  ∀ (i : Instr) (s t : State), exec i s = .next t → s.block.softEvent = false →
    t.block.softEvent = true → i.setsMarker = true

/-- R175, R195: an operation emits one DELIVER if it is RX_OK and none otherwise, and one START_TX if it is
TX and none otherwise. -/
def Obligations.DeliverOnlyInRxOkAndStartTxOnlyInTx : Prop :=
  ∀ (i : Instr) (s t : State), exec i s = .next t →
    countDeliver t.actions = countDeliver s.actions + i.delivers.toNat ∧
    countStartTx t.actions = countStartTx s.actions + i.transmits.toNat

/-- R25 to R27, R38 to R41, R47: no operation of an invocation writes the configuration bits, the outbound
registers or OUT_BUF; and only the HOP timeouts write the channel (R24). -/
def Obligations.InvocationsLeaveConfigurationAndOutboundSlot : Prop :=
  ∀ (i : Instr) (d : Dw) (s t : State), i.dw? = some d → exec i s = .next t →
    t.block.hopEn = s.block.hopEn ∧ t.block.cadEn = s.block.cadEn ∧
    t.block.xcvrModel = s.block.xcvrModel ∧ t.block.outLen = s.block.outLen ∧
    t.block.outTmst = s.block.outTmst ∧ t.block.outSf = s.block.outSf ∧
    t.block.outPower = s.block.outPower ∧ t.block.outFreq = s.block.outFreq ∧
    t.block.outCrc = s.block.outCrc ∧ t.block.outIq = s.block.outIq ∧ t.block.outBuf = s.block.outBuf ∧
    (t.block.channel = s.block.channel ∨ i = .hopDoneTo d ∨ i = .hopEventTo d)

/-- R132, R15, R24: every ARM_SCAN an operation emits carries SF 7 and the channel the operation leaves, and the
operation leaves `sf` at 7; and with legal parameters and a channel of the plan before, `P_CHANNEL_PLAN` gives
the armed channel a carrier. The actions an operation emits are those it appends to the list it is given; of a
step, an invocation's with its prologue among them, the same holds for every action in its list. -/
def Obligations.ScanIsAlwaysArmedAtSf7 : Prop :=
  (∀ (i : Instr) (s t : State), exec i s = .next t →
    ∃ new : List Action, t.actions = s.actions ++ new ∧
      ∀ (ch : Byte) (sf : BitVec 4), .armScan ch sf ∈ new →
        sf = 7 ∧ t.block.sf = 7 ∧ ch = t.block.channel ∧
        (s.params.legal → s.block.channel.toNat < s.params.numChannels → ∃ f, s.params.carrier ch = some f)) ∧
  ∀ (s t : State) (ch : Byte) (sf : BitVec 4), step s = .next t → .armScan ch sf ∈ t.actions →
    sf = 7 ∧ t.block.sf = 7 ∧ ch = t.block.channel ∧
    (s.params.legal → s.block.channel.toNat < s.params.numChannels → ∃ f, s.params.carrier ch = some f)

/-- R196: with nothing active and hop disabled, an invocation in Scan, Cad, Rx or TxDone completes and keeps
the state. -/
def Obligations.IdleInvocationKeepsTheState : Prop :=
  ∀ s : State, s.invokesNext → s.block.hopEn = false → s.popped.invocationActive = 0 →
    (s.block.state = stScan ∨ s.block.state = stCad ∨ s.block.state = stRx ∨ s.block.state = stTxDone) →
    ∃ t : State, step s = .next t ∧ t.block.state = s.block.state

/-- R53, R236: with no radio step between the actions and plain primitives, no operation sets an interrupt
flag, and the operations that clear neither flags nor mask leave both as they stand. (That register reads have
no effect on the transceiver is R55's default, assumption log 11.) -/
def Obligations.OperationsNeverRaiseFlags : Prop :=
  ∀ (i : Instr) (s t : State), s.params.plainRadio → s.radioStill → exec i s = .next t →
    (∀ k : Nat, t.radio.flags.getLsbD k = true → s.radio.flags.getLsbD k = true) ∧
    (∀ d : Dw, (i = .scanIdle d ∨ i = .cadIdle d ∨ i = .rxHdr d ∨ i = .rxIdle d ∨ i = .rxUnk d ∨
        i = .txdoneWait d ∨ i = .hopDoneTo d ∨ i = .hopEventTo d ∨ i = .hopIdle d) →
      t.radio.flags = s.radio.flags ∧ t.radio.mask = s.radio.mask)

/-- R205, R262, R60: the transceiver, the time source, the parser and the log sink never write block state; a
host transaction and RESET never write the transceiver, the time, the parser's answers or the log sink; and no
step of any kind changes a parameter. -/
def Obligations.AgentsKeepToTheirOwnState : Prop :=
  ∀ s t : State, step s = .next t →
    t.params = s.params ∧
    ∀ (x : Stimulus) (rest : List Stimulus), s.script = x :: rest →
      ((∀ w, x ≠ .host w) → x ≠ .reset → x ≠ .invoke → t.block = s.block ∧ t.actions = []) ∧
      ((∃ w, x = .host w) ∨ x = .reset →
        t.radio = s.radio ∧ t.actions = [] ∧ t.now = s.now ∧ t.parser = s.parser ∧ t.sink = s.sink)

/-- R229, R252: an operation hands the log sink exactly the LOG records of its action list, in their order; the
sink takes a record on its way at any time, out of order too, keeps it or drops it, and touches nothing else.
(The list of records on their way and the form of the sink's step are the model's, assumption log 17.) -/
def Obligations.LogRecordsGoToTheSink : Prop :=
  (∀ (i : Instr) (s t : State), exec i s = .next t →
    ∃ new : List Action, t.actions = s.actions ++ new ∧
      t.sink = { s.sink with inFlight := s.sink.inFlight ++ logCodes new }) ∧
  ∀ (s : State) (before after : List LogCode) (c : LogCode) (keep : Bool) (rest : List Stimulus),
    s.sink.inFlight = before ++ c :: after → s.script = .sink before.length keep :: rest →
    step s = .next { s with
      script := rest, actions := [], reply := .none,
      sink := {
        inFlight := before ++ after
        kept := if keep then s.sink.kept ++ [c] else s.sink.kept } }
end

