-- ==== Sys2Proof/Laws/Memory.lean ====
section
/-! SUPPORT. The laws of a staging buffer: what a byte reads as after each memory operation, and that every
memory operation keeps the canonical form. -/

namespace Sys2Proof.Machine
open Sys2Proof

theorem memRead_cons (a : Nat) (v : Byte) (m : Memory) (i : Nat) :
    memRead ((a, v) :: m) i = if a = i then v else memRead m i := rfl

theorem memRead_of_lt {m : Memory} {i : Nat} (h : ∀ c ∈ m, i < c.1) : memRead m i = unlistedByte := by
  induction m with
  | nil => rfl
  | cons c m ih =>
    obtain ⟨a, v⟩ := c
    have ha : i < a := h (a, v) (by simp)
    rw [memRead_cons, if_neg (by omega)]
    exact ih fun c hc => h c (by simp [hc])

theorem wf_nil : Memory.wf [] := by simp [Memory.wf]

theorem wf_tail {c : Host.Cell} {m : Memory} (h : Memory.wf (c :: m)) : Memory.wf m :=
  ⟨(List.pairwise_cons.1 h.1).2, fun e he => h.2 e (by simp [he])⟩

theorem wf_head_lt {c : Host.Cell} {m : Memory} (h : Memory.wf (c :: m)) : ∀ e ∈ m, c.1 < e.1 :=
  (List.pairwise_cons.1 h.1).1

/-- A byte read after a byte write: the byte written at its own index, what was there elsewhere. -/
theorem memRead_memWrite {m : Memory} (h : Memory.wf m) (i j : Nat) (v : Byte) :
    memRead (memWrite m i v) j = if i = j then v else memRead m j := by
  induction m with
  | nil =>
    by_cases hv : v = unlistedByte
    · simp only [memWrite, hv, if_true, memRead]; split <;> rfl
    · simp only [memWrite, hv, if_false, memRead_cons, memRead]
  | cons c m ih =>
    obtain ⟨a, w⟩ := c
    have hlt := wf_head_lt h
    have htail := wf_tail h
    unfold memWrite
    split
    · rename_i hia
      by_cases hv : v = unlistedByte
      · simp only [hv, if_true, memRead_cons]
        by_cases hij : i = j
        · subst hij
          rw [if_neg (by omega), if_pos rfl, memRead_of_lt]
          intro c hc; exact lt_trans hia (hlt c hc)
        · simp [hij]
      · simp only [hv, if_false, memRead_cons]
    · rename_i hia
      split
      · rename_i hEq
        subst hEq
        by_cases hv : v = unlistedByte
        · simp only [hv, if_true, memRead_cons]
          by_cases hij : i = j
          · subst hij; simp [memRead_of_lt hlt]
          · simp [hij]
        · simp only [hv, if_false, memRead_cons]
          by_cases hij : i = j <;> simp [hij]
      · rename_i hne
        simp only [memRead_cons, ih htail]
        by_cases haj : a = j
        · subst haj; simp [hne]
        · simp [haj]

/-- The cells of a write are old cells or the byte written, which is not the unlisted byte. -/
theorem mem_memWrite {m : Memory} {i : Nat} {v : Byte} {c : Host.Cell} (h : c ∈ memWrite m i v) :
    c ∈ m ∨ (c = (i, v) ∧ v ≠ unlistedByte) := by
  induction m with
  | nil =>
    unfold memWrite at h
    split at h
    · simp at h
    · rename_i hv; exact .inr ⟨by simpa using h, hv⟩
  | cons e m ih =>
    obtain ⟨a, w⟩ := e
    unfold memWrite at h
    split at h
    · split at h
      · exact .inl h
      · rename_i hv
        rcases List.mem_cons.1 h with h | h
        · exact .inr ⟨h, hv⟩
        · exact .inl h
    · split at h
      · split at h
        · exact .inl (by simp [h])
        · rename_i hv
          rcases List.mem_cons.1 h with h | h
          · exact .inr ⟨h, hv⟩
          · exact .inl (by simp [h])
      · rcases List.mem_cons.1 h with h | h
        · exact .inl (by simp [h])
        · rcases ih h with h | h
          · exact .inl (by simp [h])
          · exact .inr h

/-- A byte write keeps the canonical form. -/
theorem memWrite_wf {m : Memory} (h : Memory.wf m) (i : Nat) (v : Byte) : Memory.wf (memWrite m i v) := by
  refine ⟨?_, fun c hc => ?_⟩
  · induction m with
    | nil => unfold memWrite; split <;> simp
    | cons e m ih =>
      obtain ⟨a, w⟩ := e
      have hlt := wf_head_lt h
      have hp := (wf_tail h).1
      unfold memWrite
      split
      · rename_i hia
        split
        · exact h.1
        · refine List.pairwise_cons.2 ⟨fun c hc => ?_, h.1⟩
          rcases List.mem_cons.1 hc with hc | hc
          · subst hc; exact hia
          · exact lt_trans hia (hlt c hc)
      · split
        · rename_i hEq
          subst hEq
          split
          · exact hp
          · exact List.pairwise_cons.2 ⟨hlt, hp⟩
        · refine List.pairwise_cons.2 ⟨fun c hc => ?_, ih (wf_tail h)⟩
          rcases mem_memWrite hc with hc | ⟨hc, -⟩
          · exact hlt c hc
          · subst hc; show a < i; omega
  · rcases mem_memWrite hc with hc | ⟨hc, hv⟩
    · exact h.2 c hc
    · subst hc; exact hv

/-- A byte write inside a space keeps the canonical form inside it. -/
theorem memWrite_wfBelow {cap : Nat} {m : Memory} (h : Memory.wfBelow cap m) {i : Nat} (hi : i < cap)
    (v : Byte) : Memory.wfBelow cap (memWrite m i v) := by
  refine ⟨memWrite_wf h.1 i v, fun c hc => ?_⟩
  rcases mem_memWrite hc with hc | ⟨hc, -⟩
  · exact h.2 c hc
  · subst hc; exact hi

/-- A run of byte writes keeps the canonical form. -/
theorem memWriteList_wf (l : List Byte) : ∀ {m : Memory} (_ : Memory.wf m) (i : Nat),
    Memory.wf (memWriteList m i l) := by
  induction l with
  | nil => intro m h i; exact h
  | cons v l ih => intro m h i; exact ih (memWrite_wf h i v) (i + 1)

/-- A run of byte writes inside a space keeps the canonical form inside it. -/
theorem memWriteList_wfBelow {cap : Nat} (l : List Byte) : ∀ {m : Memory} (_ : Memory.wfBelow cap m) (i : Nat)
    (_ : i + l.length ≤ cap), Memory.wfBelow cap (memWriteList m i l) := by
  induction l with
  | nil => intro m h i _; exact h
  | cons v l ih =>
    intro m h i hi
    simp only [List.length_cons] at hi
    exact ih (memWrite_wfBelow h (by omega) v) (i + 1) (by omega)

/-- A byte read after a run of byte writes: the list's byte inside the run, what was there outside it. -/
theorem memRead_memWriteList (l : List Byte) : ∀ {m : Memory} (_ : Memory.wf m) (i j : Nat),
    memRead (memWriteList m i l) j = if i ≤ j ∧ j < i + l.length then l.getD (j - i) 0 else memRead m j := by
  induction l with
  | nil => intro m h i j; rw [if_neg (by simp only [List.length_nil]; omega)]; rfl
  | cons v l ih =>
    intro m h i j
    simp only [memWriteList, List.length_cons]
    rw [ih (memWrite_wf h i v), memRead_memWrite h]
    by_cases hij : i = j
    · subst hij
      rw [if_neg (by omega), if_pos rfl, if_pos (by omega)]
      simp
    · by_cases hr : i + 1 ≤ j ∧ j < i + 1 + l.length
      · rw [if_pos hr, if_pos (by omega)]
        have hs : j - i = (j - (i + 1)) + 1 := by omega
        rw [hs, List.getD_cons_succ]
      · rw [if_neg hr, if_neg hij, if_neg (by omega)]

/-- Clearing keeps the canonical form. -/
theorem memClear_wf {m : Memory} (h : Memory.wf m) (n : Nat) : Memory.wf (memClear n m) :=
  ⟨h.1.filter _, fun c hc => h.2 c (List.mem_filter.1 hc).1⟩

theorem memClear_wfBelow {cap : Nat} {m : Memory} (h : Memory.wfBelow cap m) (n : Nat) :
    Memory.wfBelow cap (memClear n m) :=
  ⟨memClear_wf h.1 n, fun c hc => h.2 c (List.mem_filter.1 hc).1⟩

/-- A byte read after clearing the indices below `n`. -/
theorem memRead_memClear (m : Memory) (n j : Nat) :
    memRead (memClear n m) j = if j < n then 0 else memRead m j := by
  induction m with
  | nil => simp [memClear, memRead]
  | cons c m ih =>
    obtain ⟨a, v⟩ := c
    unfold memClear at ih ⊢
    rw [List.filter_cons]
    by_cases ha : n ≤ a
    · simp only [ha, decide_true, if_true, memRead_cons, ih]
      by_cases haj : a = j
      · subst haj; simp [show ¬ a < n by omega]
      · simp [haj]
    · simp only [ha, decide_false, Bool.false_eq_true, if_false, memRead_cons, ih]
      by_cases haj : a = j
      · subst haj; rw [if_pos (by omega), if_pos (by omega)]
      · simp [haj]

/-- An index at or above a space's capacity reads as an unlisted one. -/
theorem memRead_above {cap : Nat} {m : Memory} (h : Memory.wfBelow cap m) {i : Nat} (hi : cap ≤ i) :
    memRead m i = unlistedByte := by
  have hb := h.2
  clear h
  induction m with
  | nil => rfl
  | cons c m ih =>
    obtain ⟨a, v⟩ := c
    have ha : a < cap := hb (a, v) (by simp)
    rw [memRead_cons, if_neg (by omega)]
    exact ih fun c hc => hb c (by simp [hc])

/-- A buffer of free bytes is canonical inside its space. -/
theorem freeMemory_wfBelow (n k : Nat) : Memory.wfBelow n (freeMemory n k) :=
  memWriteList_wfBelow _ ⟨wf_nil, by simp⟩ 0 (by simp)

end Sys2Proof.Machine
end

