-- ==== Sys2Proof/Laws/State.lean ====
section
/-! SUPPORT. One lemma per field of State per update, true by rfl, so that no later proof unfolds a record
update; then the same for the updates that look at the state before they write. -/

namespace Sys2Proof.Machine
open Sys2Proof

/-! ### modBlock -/

@[simp] theorem modBlock_block (s : State) (f : Block → Block) : (s.modBlock f).block = f s.block := rfl
@[simp] theorem modBlock_radio (s : State) (f : Block → Block) : (s.modBlock f).radio = s.radio := rfl
@[simp] theorem modBlock_now (s : State) (f : Block → Block) : (s.modBlock f).now = s.now := rfl
@[simp] theorem modBlock_parser (s : State) (f : Block → Block) : (s.modBlock f).parser = s.parser := rfl
@[simp] theorem modBlock_script (s : State) (f : Block → Block) : (s.modBlock f).script = s.script := rfl
@[simp] theorem modBlock_sink (s : State) (f : Block → Block) : (s.modBlock f).sink = s.sink := rfl
@[simp] theorem modBlock_actions (s : State) (f : Block → Block) : (s.modBlock f).actions = s.actions := rfl
@[simp] theorem modBlock_reply (s : State) (f : Block → Block) : (s.modBlock f).reply = s.reply := rfl
@[simp] theorem modBlock_draws (s : State) (f : Block → Block) : (s.modBlock f).draws = s.draws := rfl
@[simp] theorem modBlock_params (s : State) (f : Block → Block) : (s.modBlock f).params = s.params := rfl

/-! ### record -/

@[simp] theorem record_block (s : State) (a : Action) : (s.record a).block = s.block := rfl
@[simp] theorem record_radio (s : State) (a : Action) : (s.record a).radio = s.radio := rfl
@[simp] theorem record_now (s : State) (a : Action) : (s.record a).now = s.now := rfl
@[simp] theorem record_parser (s : State) (a : Action) : (s.record a).parser = s.parser := rfl
@[simp] theorem record_script (s : State) (a : Action) : (s.record a).script = s.script := rfl
@[simp] theorem record_sink (s : State) (a : Action) : (s.record a).sink = s.sink := rfl
@[simp] theorem record_actions (s : State) (a : Action) : (s.record a).actions = s.actions ++ [a] := rfl
@[simp] theorem record_reply (s : State) (a : Action) : (s.record a).reply = s.reply := rfl
@[simp] theorem record_draws (s : State) (a : Action) : (s.record a).draws = s.draws := rfl
@[simp] theorem record_params (s : State) (a : Action) : (s.record a).params = s.params := rfl

/-! ### clearFlags -/

@[simp] theorem clearFlags_block (s : State) (set : Byte) : (s.clearFlags set).block = s.block := rfl
@[simp] theorem clearFlags_now (s : State) (set : Byte) : (s.clearFlags set).now = s.now := rfl
@[simp] theorem clearFlags_parser (s : State) (set : Byte) : (s.clearFlags set).parser = s.parser := rfl
@[simp] theorem clearFlags_script (s : State) (set : Byte) : (s.clearFlags set).script = s.script := rfl
@[simp] theorem clearFlags_sink (s : State) (set : Byte) : (s.clearFlags set).sink = s.sink := rfl
@[simp] theorem clearFlags_actions (s : State) (set : Byte) : (s.clearFlags set).actions = s.actions := rfl
@[simp] theorem clearFlags_reply (s : State) (set : Byte) : (s.clearFlags set).reply = s.reply := rfl
@[simp] theorem clearFlags_draws (s : State) (set : Byte) : (s.clearFlags set).draws = s.draws := rfl
@[simp] theorem clearFlags_params (s : State) (set : Byte) : (s.clearFlags set).params = s.params := rfl

/-! ### startStep -/

@[simp] theorem startStep_block (s : State) : (s.startStep).block = s.block := rfl
@[simp] theorem startStep_radio (s : State) : (s.startStep).radio = s.radio := rfl
@[simp] theorem startStep_now (s : State) : (s.startStep).now = s.now := rfl
@[simp] theorem startStep_parser (s : State) : (s.startStep).parser = s.parser := rfl
@[simp] theorem startStep_script (s : State) : (s.startStep).script = s.script := rfl
@[simp] theorem startStep_sink (s : State) : (s.startStep).sink = s.sink := rfl
@[simp] theorem startStep_actions (s : State) : (s.startStep).actions = [] := rfl
@[simp] theorem startStep_reply (s : State) : (s.startStep).reply = .none := rfl
@[simp] theorem startStep_draws (s : State) : (s.startStep).draws = s.draws := rfl
@[simp] theorem startStep_params (s : State) : (s.startStep).params = s.params := rfl

/-! ### refuse -/

@[simp] theorem refuse_block (s : State) : (s.refuse).block = s.block := rfl
@[simp] theorem refuse_radio (s : State) : (s.refuse).radio = s.radio := rfl
@[simp] theorem refuse_now (s : State) : (s.refuse).now = s.now := rfl
@[simp] theorem refuse_parser (s : State) : (s.refuse).parser = s.parser := rfl
@[simp] theorem refuse_script (s : State) : (s.refuse).script = s.script := rfl
@[simp] theorem refuse_sink (s : State) : (s.refuse).sink = s.sink := rfl
@[simp] theorem refuse_actions (s : State) : (s.refuse).actions = s.actions := rfl
@[simp] theorem refuse_reply (s : State) : (s.refuse).reply = .refused := rfl
@[simp] theorem refuse_draws (s : State) : (s.refuse).draws = s.draws := rfl
@[simp] theorem refuse_params (s : State) : (s.refuse).params = s.params := rfl

/-! ### answerHost -/

@[simp] theorem answerHost_block (s : State) (w : Word) : (s.answerHost w).block = s.block := rfl
@[simp] theorem answerHost_radio (s : State) (w : Word) : (s.answerHost w).radio = s.radio := rfl
@[simp] theorem answerHost_now (s : State) (w : Word) : (s.answerHost w).now = s.now := rfl
@[simp] theorem answerHost_parser (s : State) (w : Word) : (s.answerHost w).parser = s.parser := rfl
@[simp] theorem answerHost_script (s : State) (w : Word) : (s.answerHost w).script = s.script := rfl
@[simp] theorem answerHost_sink (s : State) (w : Word) : (s.answerHost w).sink = s.sink := rfl
@[simp] theorem answerHost_actions (s : State) (w : Word) : (s.answerHost w).actions = s.actions := rfl
@[simp] theorem answerHost_reply (s : State) (w : Word) : (s.answerHost w).reply = .value w := rfl
@[simp] theorem answerHost_draws (s : State) (w : Word) : (s.answerHost w).draws = s.draws := rfl
@[simp] theorem answerHost_params (s : State) (w : Word) : (s.answerHost w).params = s.params := rfl

/-! ### accept -/

@[simp] theorem accept_block (s : State) (f : Block → Block) : (s.accept f).block = f s.block := rfl
@[simp] theorem accept_radio (s : State) (f : Block → Block) : (s.accept f).radio = s.radio := rfl
@[simp] theorem accept_now (s : State) (f : Block → Block) : (s.accept f).now = s.now := rfl
@[simp] theorem accept_parser (s : State) (f : Block → Block) : (s.accept f).parser = s.parser := rfl
@[simp] theorem accept_script (s : State) (f : Block → Block) : (s.accept f).script = s.script := rfl
@[simp] theorem accept_sink (s : State) (f : Block → Block) : (s.accept f).sink = s.sink := rfl
@[simp] theorem accept_actions (s : State) (f : Block → Block) : (s.accept f).actions = s.actions := rfl
@[simp] theorem accept_reply (s : State) (f : Block → Block) : (s.accept f).reply = .accepted := rfl
@[simp] theorem accept_draws (s : State) (f : Block → Block) : (s.accept f).draws = s.draws := rfl
@[simp] theorem accept_params (s : State) (f : Block → Block) : (s.accept f).params = s.params := rfl

/-! ### radioRaise -/

@[simp] theorem radioRaise_block (s : State) (bits : Byte) : (s.radioRaise bits).block = s.block := rfl
@[simp] theorem radioRaise_now (s : State) (bits : Byte) : (s.radioRaise bits).now = s.now := rfl
@[simp] theorem radioRaise_parser (s : State) (bits : Byte) : (s.radioRaise bits).parser = s.parser := rfl
@[simp] theorem radioRaise_script (s : State) (bits : Byte) : (s.radioRaise bits).script = s.script := rfl
@[simp] theorem radioRaise_sink (s : State) (bits : Byte) : (s.radioRaise bits).sink = s.sink := rfl
@[simp] theorem radioRaise_actions (s : State) (bits : Byte) : (s.radioRaise bits).actions = s.actions := rfl
@[simp] theorem radioRaise_reply (s : State) (bits : Byte) : (s.radioRaise bits).reply = s.reply := rfl
@[simp] theorem radioRaise_draws (s : State) (bits : Byte) : (s.radioRaise bits).draws = s.draws := rfl
@[simp] theorem radioRaise_params (s : State) (bits : Byte) : (s.radioRaise bits).params = s.params := rfl

/-! ### scheduleRaises -/

@[simp] theorem scheduleRaises_block (s : State) (sets : List Byte) : (s.scheduleRaises sets).block = s.block := rfl
@[simp] theorem scheduleRaises_now (s : State) (sets : List Byte) : (s.scheduleRaises sets).now = s.now := rfl
@[simp] theorem scheduleRaises_parser (s : State) (sets : List Byte) : (s.scheduleRaises sets).parser = s.parser := rfl
@[simp] theorem scheduleRaises_script (s : State) (sets : List Byte) : (s.scheduleRaises sets).script = s.script := rfl
@[simp] theorem scheduleRaises_sink (s : State) (sets : List Byte) : (s.scheduleRaises sets).sink = s.sink := rfl
@[simp] theorem scheduleRaises_actions (s : State) (sets : List Byte) : (s.scheduleRaises sets).actions = s.actions := rfl
@[simp] theorem scheduleRaises_reply (s : State) (sets : List Byte) : (s.scheduleRaises sets).reply = s.reply := rfl
@[simp] theorem scheduleRaises_draws (s : State) (sets : List Byte) : (s.scheduleRaises sets).draws = s.draws := rfl
@[simp] theorem scheduleRaises_params (s : State) (sets : List Byte) : (s.scheduleRaises sets).params = s.params := rfl

/-! ### setMask -/

@[simp] theorem setMask_block (s : State) (mask : Byte) : (s.setMask mask).block = s.block := rfl
@[simp] theorem setMask_now (s : State) (mask : Byte) : (s.setMask mask).now = s.now := rfl
@[simp] theorem setMask_parser (s : State) (mask : Byte) : (s.setMask mask).parser = s.parser := rfl
@[simp] theorem setMask_script (s : State) (mask : Byte) : (s.setMask mask).script = s.script := rfl
@[simp] theorem setMask_sink (s : State) (mask : Byte) : (s.setMask mask).sink = s.sink := rfl
@[simp] theorem setMask_actions (s : State) (mask : Byte) : (s.setMask mask).actions = s.actions := rfl
@[simp] theorem setMask_reply (s : State) (mask : Byte) : (s.setMask mask).reply = s.reply := rfl
@[simp] theorem setMask_draws (s : State) (mask : Byte) : (s.setMask mask).draws = s.draws := rfl
@[simp] theorem setMask_params (s : State) (mask : Byte) : (s.setMask mask).params = s.params := rfl

/-! ### setTime -/

@[simp] theorem setTime_block (s : State) (t : Nat) : (s.setTime t).block = s.block := rfl
@[simp] theorem setTime_radio (s : State) (t : Nat) : (s.setTime t).radio = s.radio := rfl
@[simp] theorem setTime_now (s : State) (t : Nat) : (s.setTime t).now = BitVec.ofNat 32 (t % s.params.timeMod) := rfl
@[simp] theorem setTime_parser (s : State) (t : Nat) : (s.setTime t).parser = s.parser := rfl
@[simp] theorem setTime_script (s : State) (t : Nat) : (s.setTime t).script = s.script := rfl
@[simp] theorem setTime_sink (s : State) (t : Nat) : (s.setTime t).sink = s.sink := rfl
@[simp] theorem setTime_actions (s : State) (t : Nat) : (s.setTime t).actions = s.actions := rfl
@[simp] theorem setTime_reply (s : State) (t : Nat) : (s.setTime t).reply = s.reply := rfl
@[simp] theorem setTime_draws (s : State) (t : Nat) : (s.setTime t).draws = s.draws := rfl
@[simp] theorem setTime_params (s : State) (t : Nat) : (s.setTime t).params = s.params := rfl

/-! ### addAnswer -/

@[simp] theorem addAnswer_block (s : State) (q : StatusReg) (v : Byte) : (s.addAnswer q v).block = s.block := rfl
@[simp] theorem addAnswer_now (s : State) (q : StatusReg) (v : Byte) : (s.addAnswer q v).now = s.now := rfl
@[simp] theorem addAnswer_parser (s : State) (q : StatusReg) (v : Byte) : (s.addAnswer q v).parser = s.parser := rfl
@[simp] theorem addAnswer_script (s : State) (q : StatusReg) (v : Byte) : (s.addAnswer q v).script = s.script := rfl
@[simp] theorem addAnswer_sink (s : State) (q : StatusReg) (v : Byte) : (s.addAnswer q v).sink = s.sink := rfl
@[simp] theorem addAnswer_actions (s : State) (q : StatusReg) (v : Byte) : (s.addAnswer q v).actions = s.actions := rfl
@[simp] theorem addAnswer_reply (s : State) (q : StatusReg) (v : Byte) : (s.addAnswer q v).reply = s.reply := rfl
@[simp] theorem addAnswer_draws (s : State) (q : StatusReg) (v : Byte) : (s.addAnswer q v).draws = s.draws := rfl
@[simp] theorem addAnswer_params (s : State) (q : StatusReg) (v : Byte) : (s.addAnswer q v).params = s.params := rfl

/-! ### addPacket -/

@[simp] theorem addPacket_block (s : State) (p : PktAnswer) : (s.addPacket p).block = s.block := rfl
@[simp] theorem addPacket_now (s : State) (p : PktAnswer) : (s.addPacket p).now = s.now := rfl
@[simp] theorem addPacket_parser (s : State) (p : PktAnswer) : (s.addPacket p).parser = s.parser := rfl
@[simp] theorem addPacket_script (s : State) (p : PktAnswer) : (s.addPacket p).script = s.script := rfl
@[simp] theorem addPacket_sink (s : State) (p : PktAnswer) : (s.addPacket p).sink = s.sink := rfl
@[simp] theorem addPacket_actions (s : State) (p : PktAnswer) : (s.addPacket p).actions = s.actions := rfl
@[simp] theorem addPacket_reply (s : State) (p : PktAnswer) : (s.addPacket p).reply = s.reply := rfl
@[simp] theorem addPacket_draws (s : State) (p : PktAnswer) : (s.addPacket p).draws = s.draws := rfl
@[simp] theorem addPacket_params (s : State) (p : PktAnswer) : (s.addPacket p).params = s.params := rfl

/-! ### addParser -/

@[simp] theorem addParser_block (s : State) (k : Int) : (s.addParser k).block = s.block := rfl
@[simp] theorem addParser_radio (s : State) (k : Int) : (s.addParser k).radio = s.radio := rfl
@[simp] theorem addParser_now (s : State) (k : Int) : (s.addParser k).now = s.now := rfl
@[simp] theorem addParser_parser (s : State) (k : Int) : (s.addParser k).parser = s.parser ++ [k] := rfl
@[simp] theorem addParser_script (s : State) (k : Int) : (s.addParser k).script = s.script := rfl
@[simp] theorem addParser_sink (s : State) (k : Int) : (s.addParser k).sink = s.sink := rfl
@[simp] theorem addParser_actions (s : State) (k : Int) : (s.addParser k).actions = s.actions := rfl
@[simp] theorem addParser_reply (s : State) (k : Int) : (s.addParser k).reply = s.reply := rfl
@[simp] theorem addParser_draws (s : State) (k : Int) : (s.addParser k).draws = s.draws := rfl
@[simp] theorem addParser_params (s : State) (k : Int) : (s.addParser k).params = s.params := rfl

/-! ### takePacket -/

@[simp] theorem takePacket_block (s : State) : (s.takePacket).block = s.block := rfl
@[simp] theorem takePacket_now (s : State) : (s.takePacket).now = s.now := rfl
@[simp] theorem takePacket_parser (s : State) : (s.takePacket).parser = s.parser := rfl
@[simp] theorem takePacket_script (s : State) : (s.takePacket).script = s.script := rfl
@[simp] theorem takePacket_sink (s : State) : (s.takePacket).sink = s.sink := rfl
@[simp] theorem takePacket_actions (s : State) : (s.takePacket).actions = s.actions := rfl
@[simp] theorem takePacket_reply (s : State) : (s.takePacket).reply = s.reply := rfl
@[simp] theorem takePacket_draws (s : State) : (s.takePacket).draws = s.draws + 1 + s.params.inCap := rfl
@[simp] theorem takePacket_params (s : State) : (s.takePacket).params = s.params := rfl

@[simp] theorem clearFlags_radio (s : State) (set : Byte) :
    (s.clearFlags set).radio = { s.radio with flags := s.radio.flags &&& ~~~set } := rfl

@[simp] theorem takePacket_radio (s : State) :
    s.takePacket.radio = { s.radio with packets := s.radio.packets.tail } := rfl

@[simp] theorem modBlock_modBlock (s : State) (f g : Block → Block) :
    (s.modBlock f).modBlock g = s.modBlock fun b => g (f b) := rfl

/-! ### radioStep -/

@[simp] theorem radioStep_block (s : State) : (s.radioStep).block = s.block := by
  unfold State.radioStep; split <;> rfl
@[simp] theorem radioStep_now (s : State) : (s.radioStep).now = s.now := by
  unfold State.radioStep; split <;> rfl
@[simp] theorem radioStep_parser (s : State) : (s.radioStep).parser = s.parser := by
  unfold State.radioStep; split <;> rfl
@[simp] theorem radioStep_script (s : State) : (s.radioStep).script = s.script := by
  unfold State.radioStep; split <;> rfl
@[simp] theorem radioStep_sink (s : State) : (s.radioStep).sink = s.sink := by
  unfold State.radioStep; split <;> rfl
@[simp] theorem radioStep_actions (s : State) : (s.radioStep).actions = s.actions := by
  unfold State.radioStep; split <;> rfl
@[simp] theorem radioStep_reply (s : State) : (s.radioStep).reply = s.reply := by
  unfold State.radioStep; split <;> rfl
@[simp] theorem radioStep_draws (s : State) : (s.radioStep).draws = s.draws := by
  unfold State.radioStep; split <;> rfl
@[simp] theorem radioStep_params (s : State) : (s.radioStep).params = s.params := by
  unfold State.radioStep; split <;> rfl

/-! ### The log sink -/

@[simp] theorem hand_nil (k : LogSink) : k.hand [] = k := by simp [LogSink.hand]
@[simp] theorem hand_hand (k : LogSink) (l m : List LogCode) : (k.hand l).hand m = k.hand (l ++ m) := by
  simp [LogSink.hand]
@[simp] theorem logCodes_nil : logCodes [] = [] := rfl
@[simp] theorem logCodes_cons (a : Action) (l : List Action) :
    logCodes (a :: l) = a.logCode?.toList ++ logCodes l := by
  unfold logCodes; rw [List.filterMap_cons]; cases a.logCode? <;> rfl
@[simp] theorem logCode?_log (c : LogCode) : (Action.log c).logCode? = some c := rfl
@[simp] theorem logCode?_rd (r : RegId) (v : Byte) : (Action.rd r v).logCode? = none := rfl
@[simp] theorem logCode?_readPacket (n : Half) (l : List Byte) : (Action.readPacket n l).logCode? = none := rfl
@[simp] theorem logCode?_clrMask : Action.clrMask.logCode? = none := rfl
@[simp] theorem logCode?_clrFlags (set : Byte) : (Action.clrFlags set).logCode? = none := rfl
@[simp] theorem logCode?_setDio (c : Byte) : (Action.setDio c).logCode? = none := rfl
@[simp] theorem logCode?_opmodeCad : Action.opmodeCad.logCode? = none := rfl
@[simp] theorem logCode?_setRate (sf : BitVec 4) (f : Byte) : (Action.setRate sf f).logCode? = none := rfl
@[simp] theorem logCode?_startRxSingle : Action.startRxSingle.logCode? = none := rfl
@[simp] theorem logCode?_startRxCont : Action.startRxCont.logCode? = none := rfl
@[simp] theorem logCode?_startTx (r : OutRecord) : (Action.startTx r).logCode? = none := rfl
@[simp] theorem logCode?_armScan (ch : Byte) (sf : BitVec 4) : (Action.armScan ch sf).logCode? = none := rfl
@[simp] theorem logCode?_deliver (r : InRecord) (k : Int) : (Action.deliver r k).logCode? = none := rfl
@[simp] theorem logCode?_yield : Action.yield.logCode? = none := rfl
@[simp] theorem logCode?_ite (c : Prop) [Decidable c] (a b : Action) :
    (if c then a else b).logCode? = if c then a.logCode? else b.logCode? := by split <;> rfl
@[simp] theorem logCodes_append (l m : List Action) : logCodes (l ++ m) = logCodes l ++ logCodes m := by
  simp [logCodes]

@[simp] theorem handToSink_block (s : State) (c : LogCode) : (s.handToSink c).block = s.block := rfl
@[simp] theorem handToSink_radio (s : State) (c : LogCode) : (s.handToSink c).radio = s.radio := rfl
@[simp] theorem handToSink_now (s : State) (c : LogCode) : (s.handToSink c).now = s.now := rfl
@[simp] theorem handToSink_parser (s : State) (c : LogCode) : (s.handToSink c).parser = s.parser := rfl
@[simp] theorem handToSink_sink (s : State) (c : LogCode) : (s.handToSink c).sink = s.sink.hand [c] := rfl
@[simp] theorem handToSink_script (s : State) (c : LogCode) : (s.handToSink c).script = s.script := rfl
@[simp] theorem handToSink_actions (s : State) (c : LogCode) : (s.handToSink c).actions = s.actions := rfl
@[simp] theorem handToSink_reply (s : State) (c : LogCode) : (s.handToSink c).reply = s.reply := rfl
@[simp] theorem handToSink_draws (s : State) (c : LogCode) : (s.handToSink c).draws = s.draws := rfl
@[simp] theorem handToSink_params (s : State) (c : LogCode) : (s.handToSink c).params = s.params := rfl

@[simp] theorem sinkTakes_block (s : State) (i : Nat) (k : Bool) : (s.sinkTakes i k).block = s.block := rfl
@[simp] theorem sinkTakes_radio (s : State) (i : Nat) (k : Bool) : (s.sinkTakes i k).radio = s.radio := rfl
@[simp] theorem sinkTakes_now (s : State) (i : Nat) (k : Bool) : (s.sinkTakes i k).now = s.now := rfl
@[simp] theorem sinkTakes_parser (s : State) (i : Nat) (k : Bool) : (s.sinkTakes i k).parser = s.parser := rfl
@[simp] theorem sinkTakes_script (s : State) (i : Nat) (k : Bool) : (s.sinkTakes i k).script = s.script := rfl
@[simp] theorem sinkTakes_actions (s : State) (i : Nat) (k : Bool) : (s.sinkTakes i k).actions = s.actions := rfl
@[simp] theorem sinkTakes_reply (s : State) (i : Nat) (k : Bool) : (s.sinkTakes i k).reply = s.reply := rfl
@[simp] theorem sinkTakes_draws (s : State) (i : Nat) (k : Bool) : (s.sinkTakes i k).draws = s.draws := rfl
@[simp] theorem sinkTakes_params (s : State) (i : Nat) (k : Bool) : (s.sinkTakes i k).params = s.params := rfl

/-! ### popped -/

@[simp] theorem popped_block (s : State) : s.popped.block = s.block := by
  unfold State.popped; split <;> [rfl; (split <;> rfl)]
@[simp] theorem popped_radio (s : State) : s.popped.radio = s.radio := by
  unfold State.popped; split <;> [rfl; (split <;> rfl)]
@[simp] theorem popped_now (s : State) : s.popped.now = s.now := by
  unfold State.popped; split <;> [rfl; (split <;> rfl)]
@[simp] theorem popped_parser (s : State) : s.popped.parser = s.parser := by
  unfold State.popped; split <;> [rfl; (split <;> rfl)]
@[simp] theorem popped_sink (s : State) : s.popped.sink = s.sink := by
  unfold State.popped; split <;> [rfl; (split <;> rfl)]
@[simp] theorem popped_actions (s : State) : s.popped.actions = s.actions := by
  unfold State.popped; split <;> [rfl; (split <;> rfl)]
@[simp] theorem popped_reply (s : State) : s.popped.reply = s.reply := by
  unfold State.popped; split <;> [rfl; (split <;> rfl)]
@[simp] theorem popped_params (s : State) : s.popped.params = s.params := by
  unfold State.popped; split <;> [rfl; (split <;> rfl)]
@[simp] theorem popped_script (s : State) : s.popped.script = s.script.tail := by
  unfold State.popped; split <;> [simp [*]; (split <;> simp [*])]

/-! ### driverEffect -/

@[simp] theorem driverEffect_block (s : State) (c : Byte) : (s.driverEffect c).block = s.block := by
  unfold State.driverEffect; split <;> rfl
@[simp] theorem driverEffect_now (s : State) (c : Byte) : (s.driverEffect c).now = s.now := by
  unfold State.driverEffect; split <;> rfl
@[simp] theorem driverEffect_parser (s : State) (c : Byte) : (s.driverEffect c).parser = s.parser := by
  unfold State.driverEffect; split <;> rfl
@[simp] theorem driverEffect_script (s : State) (c : Byte) : (s.driverEffect c).script = s.script := by
  unfold State.driverEffect; split <;> rfl
@[simp] theorem driverEffect_sink (s : State) (c : Byte) : (s.driverEffect c).sink = s.sink := by
  unfold State.driverEffect; split <;> rfl
@[simp] theorem driverEffect_actions (s : State) (c : Byte) : (s.driverEffect c).actions = s.actions := by
  unfold State.driverEffect; split <;> rfl
@[simp] theorem driverEffect_reply (s : State) (c : Byte) : (s.driverEffect c).reply = s.reply := by
  unfold State.driverEffect; split <;> rfl
@[simp] theorem driverEffect_params (s : State) (c : Byte) : (s.driverEffect c).params = s.params := by
  unfold State.driverEffect; split <;> rfl

/-! ### react -/

@[simp] theorem react_block (s : State) (a : Action) : (s.react a).block = s.block := by
  cases a <;> simp [State.react]
@[simp] theorem react_now (s : State) (a : Action) : (s.react a).now = s.now := by
  cases a <;> simp [State.react]
@[simp] theorem react_parser (s : State) (a : Action) : (s.react a).parser = s.parser := by
  cases a <;> simp [State.react]
@[simp] theorem react_script (s : State) (a : Action) : (s.react a).script = s.script := by
  cases a <;> simp [State.react]
@[simp] theorem react_sink (s : State) (a : Action) : (s.react a).sink = s.sink.hand (logCodes [a]) := by
  cases a <;> simp [State.react]
@[simp] theorem react_actions (s : State) (a : Action) : (s.react a).actions = s.actions := by
  cases a <;> simp [State.react]
@[simp] theorem react_reply (s : State) (a : Action) : (s.react a).reply = s.reply := by
  cases a <;> simp [State.react]
@[simp] theorem react_params (s : State) (a : Action) : (s.react a).params = s.params := by
  cases a <;> simp [State.react]

/-! ### emit -/

@[simp] theorem emit_block (s : State) (a : Action) : (s.emit a).block = s.block := by
  simp [State.emit]
@[simp] theorem emit_now (s : State) (a : Action) : (s.emit a).now = s.now := by
  simp [State.emit]
@[simp] theorem emit_parser (s : State) (a : Action) : (s.emit a).parser = s.parser := by
  simp [State.emit]
@[simp] theorem emit_script (s : State) (a : Action) : (s.emit a).script = s.script := by
  simp [State.emit]
@[simp] theorem emit_sink (s : State) (a : Action) : (s.emit a).sink = s.sink.hand (logCodes [a]) := by
  simp only [State.emit, react_sink, record_sink, radioStep_sink]
@[simp] theorem emit_reply (s : State) (a : Action) : (s.emit a).reply = s.reply := by
  simp [State.emit]
@[simp] theorem emit_params (s : State) (a : Action) : (s.emit a).params = s.params := by
  simp [State.emit]

@[simp] theorem emit_actions (s : State) (a : Action) : (s.emit a).actions = s.actions ++ [a] := by
  simp [State.emit]

/-! ### clearMaskFlags -/

@[simp] theorem clearMaskFlags_block (s : State) (set : Byte) : (s.clearMaskFlags set).block = s.block := by
  simp [State.clearMaskFlags]
@[simp] theorem clearMaskFlags_now (s : State) (set : Byte) : (s.clearMaskFlags set).now = s.now := by
  simp [State.clearMaskFlags]
@[simp] theorem clearMaskFlags_parser (s : State) (set : Byte) : (s.clearMaskFlags set).parser = s.parser := by
  simp [State.clearMaskFlags]
@[simp] theorem clearMaskFlags_script (s : State) (set : Byte) : (s.clearMaskFlags set).script = s.script := by
  simp [State.clearMaskFlags]
@[simp] theorem clearMaskFlags_sink (s : State) (set : Byte) : (s.clearMaskFlags set).sink = s.sink := by
  simp [State.clearMaskFlags]
@[simp] theorem clearMaskFlags_reply (s : State) (set : Byte) : (s.clearMaskFlags set).reply = s.reply := by
  simp [State.clearMaskFlags]
@[simp] theorem clearMaskFlags_params (s : State) (set : Byte) : (s.clearMaskFlags set).params = s.params := by
  simp [State.clearMaskFlags]

@[simp] theorem clearMaskFlags_actions (s : State) (set : Byte) :
    (s.clearMaskFlags set).actions = s.actions ++ [.clrMask, .clrFlags set] := by
  simp [State.clearMaskFlags]

/-! ### takeStatus -/

@[simp] theorem takeStatus_block (s : State) (q : StatusReg) : (s.takeStatus q).block = s.block := by
  unfold State.takeStatus; split <;> rfl
@[simp] theorem takeStatus_now (s : State) (q : StatusReg) : (s.takeStatus q).now = s.now := by
  unfold State.takeStatus; split <;> rfl
@[simp] theorem takeStatus_parser (s : State) (q : StatusReg) : (s.takeStatus q).parser = s.parser := by
  unfold State.takeStatus; split <;> rfl
@[simp] theorem takeStatus_script (s : State) (q : StatusReg) : (s.takeStatus q).script = s.script := by
  unfold State.takeStatus; split <;> rfl
@[simp] theorem takeStatus_sink (s : State) (q : StatusReg) : (s.takeStatus q).sink = s.sink := by
  unfold State.takeStatus; split <;> rfl
@[simp] theorem takeStatus_actions (s : State) (q : StatusReg) : (s.takeStatus q).actions = s.actions := by
  unfold State.takeStatus; split <;> rfl
@[simp] theorem takeStatus_reply (s : State) (q : StatusReg) : (s.takeStatus q).reply = s.reply := by
  unfold State.takeStatus; split <;> rfl
@[simp] theorem takeStatus_params (s : State) (q : StatusReg) : (s.takeStatus q).params = s.params := by
  unfold State.takeStatus; split <;> rfl

/-! ### readStatus -/

@[simp] theorem readStatus_block (s : State) (q : StatusReg) : (s.readStatus q).block = s.block := by
  simp [State.readStatus]
@[simp] theorem readStatus_now (s : State) (q : StatusReg) : (s.readStatus q).now = s.now := by
  simp [State.readStatus]
@[simp] theorem readStatus_parser (s : State) (q : StatusReg) : (s.readStatus q).parser = s.parser := by
  simp [State.readStatus]
@[simp] theorem readStatus_script (s : State) (q : StatusReg) : (s.readStatus q).script = s.script := by
  simp [State.readStatus]
@[simp] theorem readStatus_sink (s : State) (q : StatusReg) : (s.readStatus q).sink = s.sink := by
  simp [State.readStatus]
@[simp] theorem readStatus_reply (s : State) (q : StatusReg) : (s.readStatus q).reply = s.reply := by
  simp [State.readStatus]
@[simp] theorem readStatus_params (s : State) (q : StatusReg) : (s.readStatus q).params = s.params := by
  simp [State.readStatus]

@[simp] theorem readStatus_actions (s : State) (q : StatusReg) :
    (s.readStatus q).actions = s.actions ++ [.rd (.status q) (s.statusValue q)] := by
  simp [State.readStatus]

/-! ### takeParser -/

@[simp] theorem takeParser_block (s : State) : (s.takeParser).block = s.block := by
  unfold State.takeParser; split <;> rfl
@[simp] theorem takeParser_radio (s : State) : (s.takeParser).radio = s.radio := by
  unfold State.takeParser; split <;> rfl
@[simp] theorem takeParser_now (s : State) : (s.takeParser).now = s.now := by
  unfold State.takeParser; split <;> rfl
@[simp] theorem takeParser_script (s : State) : (s.takeParser).script = s.script := by
  unfold State.takeParser; split <;> rfl
@[simp] theorem takeParser_sink (s : State) : (s.takeParser).sink = s.sink := by
  unfold State.takeParser; split <;> rfl
@[simp] theorem takeParser_actions (s : State) : (s.takeParser).actions = s.actions := by
  unfold State.takeParser; split <;> rfl
@[simp] theorem takeParser_reply (s : State) : (s.takeParser).reply = s.reply := by
  unfold State.takeParser; split <;> rfl
@[simp] theorem takeParser_params (s : State) : (s.takeParser).params = s.params := by
  unfold State.takeParser; split <;> rfl

/-! ### deliver -/

@[simp] theorem deliver_block (s : State) : (s.deliver).block = s.block := by
  simp [State.deliver]
@[simp] theorem deliver_now (s : State) : (s.deliver).now = s.now := by
  simp [State.deliver]
@[simp] theorem deliver_script (s : State) : (s.deliver).script = s.script := by
  simp [State.deliver]
@[simp] theorem deliver_sink (s : State) : (s.deliver).sink = s.sink := by
  simp [State.deliver]
@[simp] theorem deliver_reply (s : State) : (s.deliver).reply = s.reply := by
  simp [State.deliver]
@[simp] theorem deliver_params (s : State) : (s.deliver).params = s.params := by
  simp [State.deliver]

@[simp] theorem deliver_actions (s : State) :
    s.deliver.actions = s.actions ++ [.deliver (inboundRecord s.block) s.parserValue] := by
  simp [State.deliver]

end Sys2Proof.Machine
end

