-- ==== Sys2Proof/Laws/Ops.lean ====
section
/-! SUPPORT. What each shared operation can do, once for each: the block after it, the action list after it, the
transceiver's interrupt registers after it, and what it leaves alone. Later proofs cite these and do not
unfold the operations. -/

namespace Sys2Proof.Machine
open Sys2Proof

/-! ### The transceiver across one action -/

@[simp] theorem radioStep_mask (s : State) : s.radioStep.radio.mask = s.radio.mask := by
  unfold State.radioStep; split <;> rfl

@[simp] theorem radioStep_packets (s : State) : s.radioStep.radio.packets = s.radio.packets := by
  unfold State.radioStep; split <;> rfl

@[simp] theorem radioStep_pending (s : State) (q : StatusReg) :
    s.radioStep.radio.pending q = s.radio.pending q := by
  unfold State.radioStep; split <;> cases q <;> rfl

@[simp] theorem clearFlags_pending (s : State) (set : Byte) (q : StatusReg) :
    (s.clearFlags set).radio.pending q = s.radio.pending q := by cases q <;> rfl

@[simp] theorem driverEffect_pending (s : State) (c : Byte) (q : StatusReg) :
    (s.driverEffect c).radio.pending q = s.radio.pending q := by
  unfold State.driverEffect; split <;> cases q <;> rfl

@[simp] theorem driverEffect_packets (s : State) (c : Byte) :
    (s.driverEffect c).radio.packets = s.radio.packets := by
  unfold State.driverEffect; split <;> rfl

@[simp] theorem react_pending (s : State) (a : Action) (q : StatusReg) :
    (s.react a).radio.pending q = s.radio.pending q := by
  cases a <;> simp [State.react] <;> cases q <;> rfl

@[simp] theorem react_packets (s : State) (a : Action) : (s.react a).radio.packets = s.radio.packets := by
  cases a <;> simp [State.react]

/-- No action takes an answer that is pending for a later read. -/
@[simp] theorem emit_pending (s : State) (a : Action) (q : StatusReg) :
    (s.emit a).radio.pending q = s.radio.pending q := by simp [State.emit]

@[simp] theorem emit_packets (s : State) (a : Action) : (s.emit a).radio.packets = s.radio.packets := by
  simp [State.emit]

@[simp] theorem modBlock_pending (s : State) (f : Block → Block) (q : StatusReg) :
    (s.modBlock f).radio.pending q = s.radio.pending q := rfl

/-- `CLR_MASK` leaves IRQ_MASK = 0x00 (20_memory.md R54). -/
@[simp] theorem emit_clrMask_mask (s : State) : (s.emit .clrMask).radio.mask = 0 := rfl

/-- `CLR_FLAGS(S)` clears the bits of S, whatever the radio raised before it (20_memory.md R53). -/
theorem emit_clrFlags_flags (s : State) (set : Byte) :
    (s.emit (.clrFlags set)).radio.flags = s.radioStep.radio.flags &&& ~~~set := rfl

/-- `CLR_FLAGS(0xFF)` leaves no flag set. -/
@[simp] theorem emit_clrFlags_all (s : State) : (s.emit (.clrFlags 255#8)).radio.flags = 0#8 := by
  rw [emit_clrFlags_flags, show ~~~(255#8 : Byte) = 0#8 from by decide, BitVec.and_zero]

@[simp] theorem emit_clrFlags_mask (s : State) (set : Byte) :
    (s.emit (.clrFlags set)).radio.mask = s.radio.mask := by
  simp [State.emit, State.react]

@[simp] theorem clearMaskFlags_mask (s : State) (set : Byte) :
    (s.clearMaskFlags set).radio.mask = 0 := by simp [State.clearMaskFlags]

@[simp] theorem clearMaskFlags_all (s : State) : (s.clearMaskFlags 255#8).radio.flags = 0#8 := by
  simp [State.clearMaskFlags]

@[simp] theorem clearMaskFlags_pending (s : State) (set : Byte) (q : StatusReg) :
    (s.clearMaskFlags set).radio.pending q = s.radio.pending q := by simp [State.clearMaskFlags]

@[simp] theorem emit_log_mask (s : State) (c : LogCode) : (s.emit (.log c)).radio.mask = s.radio.mask := by
  simp [State.emit, State.react]

@[simp] theorem emit_rd_mask (s : State) (r : RegId) (v : Byte) :
    (s.emit (.rd r v)).radio.mask = s.radio.mask := by simp [State.emit, State.react]

@[simp] theorem emit_yield_mask (s : State) : (s.emit .yield).radio.mask = s.radio.mask := by
  simp [State.emit, State.react]

/-! ### Draws across one action -/

@[simp] theorem emit_rd_draws (s : State) (r : RegId) (v : Byte) : (s.emit (.rd r v)).draws = s.draws := by
  simp [State.emit, State.react]

@[simp] theorem emit_log_draws (s : State) (c : LogCode) : (s.emit (.log c)).draws = s.draws := by
  simp [State.emit, State.react]

@[simp] theorem emit_yield_draws (s : State) : (s.emit .yield).draws = s.draws := by
  simp [State.emit, State.react]

@[simp] theorem emit_clrMask_draws (s : State) : (s.emit .clrMask).draws = s.draws := by
  simp [State.emit, State.react]

@[simp] theorem emit_clrFlags_draws (s : State) (set : Byte) : (s.emit (.clrFlags set)).draws = s.draws := by
  simp [State.emit, State.react]

@[simp] theorem clearMaskFlags_draws (s : State) (set : Byte) :
    (s.clearMaskFlags set).draws = s.draws := by simp [State.clearMaskFlags]

/-! ### Reads -/

/-- A pending answer is what the read returns (30_encoding.md R97). -/
theorem statusValue_of_pending {s : State} {q : StatusReg} {v : Byte} {l : List Byte}
    (h : s.radio.pending q = v :: l) : s.statusValue q = v := by simp [State.statusValue, h]

@[simp] theorem statusValue_modBlock (s : State) (f : Block → Block) (q : StatusReg) :
    (s.modBlock f).statusValue q = s.statusValue q := rfl

@[simp] theorem packetLength_modBlock (s : State) (f : Block → Block) :
    (s.modBlock f).packetLength = s.packetLength := rfl

@[simp] theorem packetByte_modBlock (s : State) (f : Block → Block) (i : Nat) :
    (s.modBlock f).packetByte i = s.packetByte i := rfl

@[simp] theorem packetBytes_modBlock (s : State) (f : Block → Block) :
    (s.modBlock f).packetBytes = s.packetBytes := rfl

@[simp] theorem packetFill_modBlock (s : State) (f : Block → Block) :
    (s.modBlock f).packetFill = s.packetFill := rfl

@[simp] theorem takePacket_block' (s : State) (f : Block → Block) :
    (s.takePacket.modBlock f).block = f s.block := rfl

@[simp] theorem packetBytes_length (s : State) : s.packetBytes.length = s.packetLength.toNat := by
  simp [State.packetBytes]

/-- What READ_PACKET writes fits in IN_BUF where its answer lies inside the contract. -/
theorem packetFill_length_le (s : State) (h : s.packetLength ≤ s.params.inCap) :
    s.packetFill.length ≤ s.params.inCap := by
  unfold State.packetFill
  split
  · simp only [packetBytes_length]; omega
  · simp

/-- Every channel of the plan has a carrier (00_scope.md R15). -/
theorem carrier_of_legal {p : Params} (h : p.legal) {ch : Byte} (hc : ch.toNat < p.numChannels) :
    ∃ f, p.carrier ch = some f := by
  have hl : p.channelPlan.length = p.numChannels := h.2.2.2.2.2.2.2.2.2.2.2.2
  exact ⟨_, List.getElem?_eq_getElem (by omega)⟩

/-! ### hopper -/

@[simp] theorem hopper_block (s : State) : s.hopper.block =
    { s.block with channel := nextChannel s.params s.block.channel, sf := 7 } := by
  simp [State.hopper]

@[simp] theorem hopper_actions (s : State) : s.hopper.actions = s.actions ++
    [.armScan (nextChannel s.params s.block.channel) 7] := by
  simp [State.hopper]

@[simp] theorem hopper_now (s : State) : s.hopper.now = s.now := by simp [State.hopper]
@[simp] theorem hopper_parser (s : State) : s.hopper.parser = s.parser := by simp [State.hopper]
@[simp] theorem hopper_script (s : State) : s.hopper.script = s.script := by simp [State.hopper]
@[simp] theorem hopper_sink (s : State) : s.hopper.sink = s.sink := by simp [State.hopper]
@[simp] theorem hopper_reply (s : State) : s.hopper.reply = s.reply := by simp [State.hopper]
@[simp] theorem hopper_params (s : State) : s.hopper.params = s.params := by simp [State.hopper]

/-! ### hopAction -/

@[simp] theorem hopAction_block (s : State) : s.hopAction.block =
    { s.block with
      state := stScan, channel := nextChannel s.params s.block.channel, sf := 7,
      doneTime := s.now, eventTime := s.now } := by
  simp [State.hopAction]

@[simp] theorem hopAction_actions (s : State) : s.hopAction.actions = s.actions ++
    [.armScan (nextChannel s.params s.block.channel) 7] := by
  simp [State.hopAction]

@[simp] theorem hopAction_now (s : State) : s.hopAction.now = s.now := by simp [State.hopAction]
@[simp] theorem hopAction_parser (s : State) : s.hopAction.parser = s.parser := by simp [State.hopAction]
@[simp] theorem hopAction_script (s : State) : s.hopAction.script = s.script := by simp [State.hopAction]
@[simp] theorem hopAction_sink (s : State) : s.hopAction.sink = s.sink := by simp [State.hopAction]
@[simp] theorem hopAction_reply (s : State) : s.hopAction.reply = s.reply := by simp [State.hopAction]
@[simp] theorem hopAction_params (s : State) : s.hopAction.params = s.params := by simp [State.hopAction]

/-! ### rescan -/

@[simp] theorem rescan_block (s : State) : s.rescan.block =
    { s.block with sf := 7 } := by
  simp [State.rescan]

@[simp] theorem rescan_actions (s : State) : s.rescan.actions = s.actions ++
    [.armScan s.block.channel 7] := by
  simp [State.rescan]

@[simp] theorem rescan_now (s : State) : s.rescan.now = s.now := by simp [State.rescan]
@[simp] theorem rescan_parser (s : State) : s.rescan.parser = s.parser := by simp [State.rescan]
@[simp] theorem rescan_script (s : State) : s.rescan.script = s.script := by simp [State.rescan]
@[simp] theorem rescan_sink (s : State) : s.rescan.sink = s.sink := by simp [State.rescan]
@[simp] theorem rescan_reply (s : State) : s.rescan.reply = s.reply := by simp [State.rescan]
@[simp] theorem rescan_params (s : State) : s.rescan.params = s.params := by simp [State.rescan]

/-! ### resume -/

@[simp] theorem resume_block (s : State) : s.resume.block =
    { s.block with
      state := if hopOrCad s.block then stScan else stRx,
      sf := if hopOrCad s.block then 7 else s.block.sf } := by
  unfold State.resume; split <;> simp [*]

@[simp] theorem resume_actions (s : State) : s.resume.actions = s.actions ++
    [if hopOrCad s.block then .armScan s.block.channel 7 else .startRxCont] := by
  unfold State.resume; split <;> simp [*]

@[simp] theorem resume_now (s : State) : s.resume.now = s.now := by
  unfold State.resume; split <;> simp
@[simp] theorem resume_parser (s : State) : s.resume.parser = s.parser := by
  unfold State.resume; split <;> simp
@[simp] theorem resume_script (s : State) : s.resume.script = s.script := by
  unfold State.resume; split <;> simp
@[simp] theorem resume_sink (s : State) : s.resume.sink = s.sink := by
  unfold State.resume; split <;> simp
@[simp] theorem resume_reply (s : State) : s.resume.reply = s.reply := by
  unfold State.resume; split <;> simp
@[simp] theorem resume_params (s : State) : s.resume.params = s.params := by
  unfold State.resume; split <;> simp

/-! ### hopPrep -/

/-- The logs of the HOP group's prefix (41_hopper.md R115, R118). -/
def hopPrepLogs (b : Block) : List Action :=
  (if eventWaitUnknown b.state then [.log .eventWaitUnknown] else []) ++
  (if sfRecognized b.sf then [] else [.log .sfUnknown])

@[simp] theorem hopPrep_block (s : State) : s.hopPrep.block =
    { s.block with eventTime := clamp s.now s.block.eventTime, doneTime := clamp s.now s.block.doneTime } := by
  unfold State.hopPrep
  by_cases h1 : eventWaitUnknown s.block.state <;> by_cases h2 : sfRecognized s.block.sf <;> simp [h1, h2]

@[simp] theorem hopPrep_actions (s : State) : s.hopPrep.actions = s.actions ++ hopPrepLogs s.block := by
  unfold State.hopPrep hopPrepLogs
  by_cases h1 : eventWaitUnknown s.block.state <;> by_cases h2 : sfRecognized s.block.sf <;> simp [h1, h2]

@[simp] theorem hopPrep_now (s : State) : s.hopPrep.now = s.now := by
  unfold State.hopPrep
  by_cases h1 : eventWaitUnknown s.block.state <;> by_cases h2 : sfRecognized s.block.sf <;> simp [h1, h2]
@[simp] theorem hopPrep_parser (s : State) : s.hopPrep.parser = s.parser := by
  unfold State.hopPrep
  by_cases h1 : eventWaitUnknown s.block.state <;> by_cases h2 : sfRecognized s.block.sf <;> simp [h1, h2]
@[simp] theorem hopPrep_script (s : State) : s.hopPrep.script = s.script := by
  unfold State.hopPrep
  by_cases h1 : eventWaitUnknown s.block.state <;> by_cases h2 : sfRecognized s.block.sf <;> simp [h1, h2]
@[simp] theorem hopPrep_sink (s : State) :
    s.hopPrep.sink = s.sink.hand (logCodes (hopPrepLogs s.block)) := by
  unfold State.hopPrep hopPrepLogs
  by_cases h1 : eventWaitUnknown s.block.state <;> by_cases h2 : sfRecognized s.block.sf <;> simp [h1, h2]
@[simp] theorem hopPrep_reply (s : State) : s.hopPrep.reply = s.reply := by
  unfold State.hopPrep
  by_cases h1 : eventWaitUnknown s.block.state <;> by_cases h2 : sfRecognized s.block.sf <;> simp [h1, h2]
@[simp] theorem hopPrep_params (s : State) : s.hopPrep.params = s.params := by
  unfold State.hopPrep
  by_cases h1 : eventWaitUnknown s.block.state <;> by_cases h2 : sfRecognized s.block.sf <;> simp [h1, h2]

/-! ### detectToRx -/

/-- The RSSI byte the detection captures (42_init_scan_cad.md R137): the answer to the read that follows
SET_DIO. -/
def detectRssi (s : State) : Byte := (s.emit (.setDio dioRx)).statusValue .rssi

theorem detectRssi_of_pending {s : State} {v : Byte} {l : List Byte} (h : s.radio.pending .rssi = v :: l) :
    detectRssi s = v := statusValue_of_pending (by simpa using h)

@[simp] theorem detectToRx_block (s : State) : s.detectToRx.block =
    { s.block with softEvent := false, detRssi := detectRssi s, detTime := s.now, state := stRx } := by
  simp [State.detectToRx, detectRssi]

@[simp] theorem detectToRx_actions (s : State) : s.detectToRx.actions = s.actions ++
    [.setDio dioRx, .rd (.status .rssi) (detectRssi s), .clrFlags 0xFF, .startRxSingle] := by
  simp [State.detectToRx, detectRssi]

@[simp] theorem detectToRx_now (s : State) : s.detectToRx.now = s.now := by simp [State.detectToRx]
@[simp] theorem detectToRx_parser (s : State) : s.detectToRx.parser = s.parser := by simp [State.detectToRx]
@[simp] theorem detectToRx_script (s : State) : s.detectToRx.script = s.script := by simp [State.detectToRx]
@[simp] theorem detectToRx_sink (s : State) : s.detectToRx.sink = s.sink := by simp [State.detectToRx]
@[simp] theorem detectToRx_reply (s : State) : s.detectToRx.reply = s.reply := by simp [State.detectToRx]
@[simp] theorem detectToRx_params (s : State) : s.detectToRx.params = s.params := by simp [State.detectToRx]

/-! ### The receive-done prefix -/

@[simp] theorem rxStage_block (s : State) : s.rxStage.block =
    { s.block with rxTime := s.now, inBuf := memClear s.params.inCap s.block.inBuf, inLen := 0 } := rfl

@[simp] theorem rxStage_actions (s : State) : s.rxStage.actions = s.actions := rfl

@[simp] theorem rxStaged_block (s : State) : s.rxStaged.block =
    { s.block with rxTime := s.now, inBuf := memClear s.params.inCap s.block.inBuf, inLen := 0 } := by
  simp [State.rxStaged]

@[simp] theorem rxStaged_actions (s : State) : s.rxStaged.actions = s.actions ++
    [.rd (.status .crcOn) (s.statusValue .crcOn)] := by
  simp [State.rxStaged]

@[simp] theorem rxStage_now (s : State) : s.rxStage.now = s.now := rfl
@[simp] theorem rxStaged_now (s : State) : s.rxStaged.now = s.now := by simp [State.rxStaged]
@[simp] theorem rxStage_parser (s : State) : s.rxStage.parser = s.parser := rfl
@[simp] theorem rxStaged_parser (s : State) : s.rxStaged.parser = s.parser := by simp [State.rxStaged]
@[simp] theorem rxStage_script (s : State) : s.rxStage.script = s.script := rfl
@[simp] theorem rxStage_sink (s : State) : s.rxStage.sink = s.sink := rfl
@[simp] theorem rxStaged_script (s : State) : s.rxStaged.script = s.script := by simp [State.rxStaged]
@[simp] theorem rxStaged_sink (s : State) : s.rxStaged.sink = s.sink := by simp [State.rxStaged]
@[simp] theorem rxStage_reply (s : State) : s.rxStage.reply = s.reply := rfl
@[simp] theorem rxStaged_reply (s : State) : s.rxStaged.reply = s.reply := by simp [State.rxStaged]
@[simp] theorem rxStage_params (s : State) : s.rxStage.params = s.params := rfl
@[simp] theorem rxStaged_params (s : State) : s.rxStaged.params = s.params := by simp [State.rxStaged]

@[simp] theorem readPacket_block (s : State) : s.readPacket.block =
    { s.block with inBuf := memWriteList s.block.inBuf 0 s.packetFill } := by
  simp [State.readPacket]

@[simp] theorem readPacket_actions (s : State) : s.readPacket.actions = s.actions ++
    [.readPacket (BitVec.ofInt 16 s.packetLength) s.packetBytes] := by
  simp [State.readPacket]

@[simp] theorem readPacket_now (s : State) : s.readPacket.now = s.now := by simp [State.readPacket]
@[simp] theorem readPacket_parser (s : State) : s.readPacket.parser = s.parser := by simp [State.readPacket]
@[simp] theorem readPacket_script (s : State) : s.readPacket.script = s.script := by simp [State.readPacket]
@[simp] theorem readPacket_sink (s : State) : s.readPacket.sink = s.sink := by simp [State.readPacket]
@[simp] theorem readPacket_reply (s : State) : s.readPacket.reply = s.reply := by simp [State.readPacket]
@[simp] theorem readPacket_params (s : State) : s.readPacket.params = s.params := by simp [State.readPacket]

/-- IN_BUF after the receive-done's packet read (43_rx.md R162, R167, R168). -/
def rxBuffer (s : State) : Memory :=
  memWriteList (memClear s.params.inCap s.block.inBuf) 0 s.rxStaged.packetFill

@[simp] theorem rxRead_block (s : State) : s.rxRead.block =
    { s.block with rxTime := s.now, inBuf := rxBuffer s, inLen := 0 } := by
  simp [State.rxRead, rxBuffer]

@[simp] theorem rxRead_actions (s : State) : s.rxRead.actions = s.actions ++
    [.rd (.status .crcOn) (s.statusValue .crcOn),
      .readPacket (BitVec.ofInt 16 s.rxLength) s.rxStaged.packetBytes] := by
  simp [State.rxRead, State.rxLength]

@[simp] theorem rxRead_now (s : State) : s.rxRead.now = s.now := by simp [State.rxRead]
@[simp] theorem rxRead_parser (s : State) : s.rxRead.parser = s.parser := by simp [State.rxRead]
@[simp] theorem rxRead_script (s : State) : s.rxRead.script = s.script := by simp [State.rxRead]
@[simp] theorem rxRead_sink (s : State) : s.rxRead.sink = s.sink := by simp [State.rxRead]
@[simp] theorem rxRead_reply (s : State) : s.rxRead.reply = s.reply := by simp [State.rxRead]
@[simp] theorem rxRead_params (s : State) : s.rxRead.params = s.params := by simp [State.rxRead]

/-- IN_BUF stays canonical inside its space across a packet read inside the contract. -/
theorem rxBuffer_wfBelow {s : State} (h : Memory.wfBelow s.params.inCap s.block.inBuf)
    (hn : s.rxOverlen = false) : Memory.wfBelow s.params.inCap (rxBuffer s) := by
  refine memWriteList_wfBelow _ (memClear_wfBelow h _) 0 ?_
  have hl := packetFill_length_le s.rxStaged
  have hn' : ¬ (s.params.inCap : Int) < s.rxLength := by simpa [State.rxOverlen] using hn
  simp only [rxStaged_params] at hl
  have := hl (Int.not_lt.1 hn')
  omega

/-- A byte of IN_BUF after the read of a good packet: the packet's byte below its length, 0 above it. -/
theorem memRead_rxBuffer {s : State} (h : Memory.wfBelow s.params.inCap s.block.inBuf)
    (hpos : 0 < s.rxLength) (j : Nat) :
    memRead (rxBuffer s) j =
      if j < s.rxLength.toNat then s.rxStaged.packetByte j
      else if j < s.params.inCap then 0 else memRead s.block.inBuf j := by
  unfold rxBuffer
  have hf : s.rxStaged.packetFill = s.rxStaged.packetBytes := by
    unfold State.packetFill; rw [if_pos (by simpa [State.rxLength] using hpos)]
  rw [memRead_memWriteList _ (memClear_wf h.1 _), hf, memRead_memClear]
  simp only [packetBytes_length, Nat.zero_le, true_and, Nat.zero_add, Nat.sub_zero]
  have hl : s.rxStaged.packetLength.toNat = s.rxLength.toNat := rfl
  rw [hl]
  by_cases hj : j < s.rxLength.toNat
  · simp only [hj, if_true]
    have hj' : j < s.rxStaged.packetBytes.length := by rw [packetBytes_length]; exact hj
    rw [List.getD_eq_getElem _ _ hj']
    simp [State.packetBytes]
  · simp only [hj, if_false]

/-! ### Pending answers across a read of another register -/

theorem setPending_pending (r : Radio) (q q' : StatusReg) (l : List Byte) :
    (r.setPending q l).pending q' = if q = q' then l else r.pending q' := by
  cases q <;> cases q' <;> rfl

theorem readStatus_pending {q q' : StatusReg} (h : q ≠ q') (s : State) :
    (s.readStatus q).radio.pending q' = s.radio.pending q' := by
  simp only [State.readStatus, emit_pending]
  unfold State.takeStatus
  split <;> simp [setPending_pending, h]

@[simp] theorem readStatus_packets (s : State) (q : StatusReg) :
    (s.readStatus q).radio.packets = s.radio.packets := by
  simp only [State.readStatus, emit_packets]
  unfold State.takeStatus
  split
  · cases q <;> rfl
  · rfl

@[simp] theorem readPacket_pending (s : State) (q : StatusReg) :
    s.readPacket.radio.pending q = s.radio.pending q := by
  cases q <;> simp only [State.readPacket, emit_pending, modBlock_pending] <;> rfl

@[simp] theorem rxStage_pending (s : State) (q : StatusReg) :
    s.rxStage.radio.pending q = s.radio.pending q := rfl

@[simp] theorem rxStage_packets (s : State) : s.rxStage.radio.packets = s.radio.packets := rfl

@[simp] theorem rxStaged_packets (s : State) : s.rxStaged.radio.packets = s.radio.packets := by
  simp [State.rxStaged]

/-- A pending packet answer is what READ_PACKET answers (20_memory.md R56). -/
theorem packetLength_of_pending {s : State} {p : PktAnswer} {l : List PktAnswer}
    (h : s.radio.packets = p :: l) : s.packetLength = p.n.toInt := by simp [State.packetLength, h]

theorem rxLength_of_pending {s : State} {p : PktAnswer} {l : List PktAnswer}
    (h : s.radio.packets = p :: l) : s.rxLength = p.n.toInt :=
  packetLength_of_pending (by simpa using h)

theorem packetByte_of_pending {s : State} {p : PktAnswer} {l : List PktAnswer}
    (h : s.radio.packets = p :: l) {j : Nat} (hj : j < p.bytes.length) :
    s.packetByte j = p.bytes.getD j 0 := by
  simp [State.packetByte, h, List.getD, hj]

/-- A packet length is a signed 16-bit number (20_memory.md R56). -/
theorem rxLength_range (s : State) : -32768 ≤ s.rxLength ∧ s.rxLength ≤ 32767 := by
  have h : ∀ n : Half, -32768 ≤ n.toInt ∧ n.toInt ≤ 32767 := fun n => by
    have h1 := BitVec.le_toInt (x := n)
    have h2 := BitVec.toInt_lt (x := n)
    norm_num at h1 h2
    omega
  unfold State.rxLength State.packetLength
  split
  · exact h _
  · exact h _

/-- The length recorded in READ_PACKET's record is the one the transceiver answered. -/
theorem toInt_ofInt_rxLength (s : State) : (BitVec.ofInt 16 s.rxLength).toInt = s.rxLength := by
  have := rxLength_range s
  rw [BitVec.toInt_ofInt, Int.bmod_def]
  split <;> omega

theorem rxOverlen_eq_false {s : State} (h : s.rxLength ≤ s.params.inCap) : s.rxOverlen = false := by
  simp only [State.rxOverlen, decide_eq_false_iff_not]; omega

/-! ### The delivery of a good packet -/

/-- The SNR byte RX_OK reads (43_rx.md R166). -/
def okSnr (s : State) : Byte := s.statusValue .pktSnr
/-- The packet-RSSI byte RX_OK reads. -/
def okRssi (s : State) : Byte := (s.readStatus .pktSnr).statusValue .pktRssi
/-- The SF configuration byte RX_OK reads. -/
def okSf (s : State) : Byte := ((s.readStatus .pktSnr).readStatus .pktRssi).statusValue .sfCfg

/-- The block with the metadata of a packet of `n` bytes (43_rx.md R166). -/
def okBlock (s : State) (n : Nat) : Block :=
  { s.block with
    inLen := BitVec.ofNat 16 n, inSnr := snrDecode s.params.snrRound (okSnr s),
    inRssi := packetRssi s.params s.block.xcvrModel (okRssi s), inSf := sfField (okSf s) }

/-- The parser's result for the packet. -/
def okParser (s : State) : Int :=
  (((s.readStatus .pktSnr).readStatus .pktRssi).readStatus .sfCfg).parserValue

@[simp] theorem parserValue_modBlock (s : State) (f : Block → Block) :
    (s.modBlock f).parserValue = s.parserValue := rfl

@[simp] theorem deliverPacket_block (s : State) (n : Nat) : (s.deliverPacket n).block = okBlock s n := by
  simp [State.deliverPacket, okBlock, okSnr, okRssi, okSf]

@[simp] theorem deliverPacket_actions (s : State) (n : Nat) : (s.deliverPacket n).actions = s.actions ++
    [.rd (.status .pktSnr) (okSnr s), .rd (.status .pktRssi) (okRssi s), .rd (.status .sfCfg) (okSf s),
      .deliver (inboundRecord (okBlock s n)) (okParser s), .log .parserResult] := by
  simp [State.deliverPacket, okBlock, okSnr, okRssi, okSf, okParser]

@[simp] theorem deliverPacket_now (s : State) (n : Nat) : (s.deliverPacket n).now = s.now := by
  simp [State.deliverPacket]
@[simp] theorem deliverPacket_script (s : State) (n : Nat) : (s.deliverPacket n).script = s.script := by
  simp [State.deliverPacket]
@[simp] theorem deliverPacket_sink (s : State) (n : Nat) :
    (s.deliverPacket n).sink = s.sink.hand [.parserResult] := by
  simp [State.deliverPacket]
@[simp] theorem deliverPacket_reply (s : State) (n : Nat) : (s.deliverPacket n).reply = s.reply := by
  simp [State.deliverPacket]
@[simp] theorem deliverPacket_params (s : State) (n : Nat) : (s.deliverPacket n).params = s.params := by
  simp [State.deliverPacket]

theorem okSnr_of_pending {s : State} {v : Byte} {l : List Byte} (h : s.radio.pktSnr = v :: l) :
    okSnr s = v := statusValue_of_pending (q := .pktSnr) h

theorem okRssi_of_pending {s : State} {v : Byte} {l : List Byte} (h : s.radio.pktRssi = v :: l) :
    okRssi s = v :=
  statusValue_of_pending (q := .pktRssi) (l := l) (by rw [readStatus_pending (by decide)]; exact h)

theorem okSf_of_pending {s : State} {v : Byte} {l : List Byte} (h : s.radio.sfCfg = v :: l) :
    okSf s = v :=
  statusValue_of_pending (q := .sfCfg) (l := l)
    (by rw [readStatus_pending (by decide), readStatus_pending (by decide)]; exact h)

theorem okParser_of_pending {s : State} {k : Int} {l : List Int} (h : s.parser = k :: l) :
    okParser s = k := by simp [okParser, State.parserValue, h]

/-! ### Packets and the parser's queue across the operations -/

@[simp] theorem modBlock_packets (s : State) (f : Block → Block) :
    (s.modBlock f).radio.packets = s.radio.packets := rfl

@[simp] theorem clearMaskFlags_packets (s : State) (set : Byte) :
    (s.clearMaskFlags set).radio.packets = s.radio.packets := by simp [State.clearMaskFlags]

@[simp] theorem deliver_packets (s : State) : s.deliver.radio.packets = s.radio.packets := by
  simp [State.deliver]

@[simp] theorem rescan_packets (s : State) : s.rescan.radio.packets = s.radio.packets := by
  simp [State.rescan]

@[simp] theorem resume_packets (s : State) : s.resume.radio.packets = s.radio.packets := by
  unfold State.resume; split <;> simp

@[simp] theorem deliverPacket_packets (s : State) (n : Nat) :
    (s.deliverPacket n).radio.packets = s.radio.packets := by simp [State.deliverPacket]

@[simp] theorem readPacket_packets (s : State) : s.readPacket.radio.packets = s.radio.packets.tail := by
  simp [State.readPacket]

@[simp] theorem rxRead_packets (s : State) : s.rxRead.radio.packets = s.radio.packets.tail := by
  simp [State.rxRead]

@[simp] theorem takeParser_parser (s : State) : s.takeParser.parser = s.parser.tail := by
  unfold State.takeParser; split <;> simp [*]

@[simp] theorem deliver_parser (s : State) : s.deliver.parser = s.parser.tail := by simp [State.deliver]

@[simp] theorem deliverPacket_parser (s : State) (n : Nat) :
    (s.deliverPacket n).parser = s.parser.tail := by simp [State.deliverPacket]

end Sys2Proof.Machine
end

