-- ==== Sys2Proof/Laws/Radio.lean ====
section
/-! SUPPORT. The transceiver's interrupt registers across the shared operations where no radio step falls between
the actions (spec/20_memory.md R58) and the driver primitives are plain (R53, R54): what is left of R236. -/

namespace Sys2Proof.Machine
open Sys2Proof

/-! ### No radio step falls between the actions -/

theorem radioStep_still {s : State} (h : s.radioStill) : s.radioStep = s := by
  unfold State.radioStep; rw [h]

theorem react_raises (s : State) (a : Action) : (s.react a).radio.raises = s.radio.raises := by
  cases a <;> simp [State.react] <;> unfold State.driverEffect <;> split <;> rfl

@[simp] theorem emit_still {s : State} (h : s.radioStill) (a : Action) : (s.emit a).radioStill := by
  unfold State.radioStill State.emit
  rw [react_raises, record_radio, radioStep_still h]; exact h

@[simp] theorem modBlock_still {s : State} (h : s.radioStill) (f : Block → Block) :
    (s.modBlock f).radioStill := h

theorem setPending_raises (r : Radio) (q : StatusReg) (l : List Byte) :
    (r.setPending q l).raises = r.raises := by cases q <;> rfl

@[simp] theorem readStatus_still {s : State} (h : s.radioStill) (q : StatusReg) :
    (s.readStatus q).radioStill := by
  refine emit_still ?_ _
  unfold State.radioStill State.takeStatus
  split
  · show (s.radio.setPending q _).raises = []
    rw [setPending_raises]; exact h
  · exact h

@[simp] theorem clearMaskFlags_still {s : State} (h : s.radioStill) (set : Byte) :
    (s.clearMaskFlags set).radioStill := emit_still (emit_still h _) _

@[simp] theorem rescan_still {s : State} (h : s.radioStill) : s.rescan.radioStill :=
  emit_still (modBlock_still h _) _

@[simp] theorem resume_still {s : State} (h : s.radioStill) : s.resume.radioStill := by
  unfold State.resume
  split
  · exact modBlock_still (rescan_still h) _
  · exact modBlock_still (emit_still h _) _

@[simp] theorem readPacket_still {s : State} (h : s.radioStill) : s.readPacket.radioStill :=
  emit_still (modBlock_still (s := s.takePacket) h _) _

@[simp] theorem rxStaged_still {s : State} (h : s.radioStill) : s.rxStaged.radioStill :=
  modBlock_still (readStatus_still h _) _

@[simp] theorem rxRead_still {s : State} (h : s.radioStill) : s.rxRead.radioStill :=
  readPacket_still (rxStaged_still h)

@[simp] theorem deliver_still {s : State} (h : s.radioStill) : s.deliver.radioStill := by
  refine emit_still ?_ _
  unfold State.takeParser; split <;> exact h

@[simp] theorem deliverPacket_still {s : State} (h : s.radioStill) (n : Nat) :
    (s.deliverPacket n).radioStill :=
  emit_still (deliver_still (modBlock_still
    (readStatus_still (readStatus_still (readStatus_still h _) _) _) _)) _

/-! ### Flags and mask across one action -/

theorem emit_still_radio {s : State} (h : s.radioStill) (a : Action) :
    (s.emit a).radio = ((s.record a).react a).radio := by
  unfold State.emit; rw [radioStep_still h]

theorem emit_rd_radio {s : State} (h : s.radioStill) (r : RegId) (v : Byte) :
    (s.emit (.rd r v)).radio = s.radio := emit_still_radio h _

theorem emit_log_radio {s : State} (h : s.radioStill) (c : LogCode) :
    (s.emit (.log c)).radio = s.radio := emit_still_radio h _

theorem emit_yield_radio {s : State} (h : s.radioStill) : (s.emit .yield).radio = s.radio :=
  emit_still_radio h _

theorem emit_deliver_radio {s : State} (h : s.radioStill) (r : InRecord) (k : Int) :
    (s.emit (.deliver r k)).radio = s.radio := emit_still_radio h _

theorem emit_clrMask_flags {s : State} (h : s.radioStill) :
    (s.emit .clrMask).radio.flags = s.radio.flags := by rw [emit_still_radio h]; rfl

theorem emit_clrFlags_still {s : State} (h : s.radioStill) (set : Byte) :
    (s.emit (.clrFlags set)).radio.flags = s.radio.flags &&& ~~~set := by
  rw [emit_still_radio h]; rfl

theorem clearMaskFlags_flags {s : State} (h : s.radioStill) (set : Byte) :
    (s.clearMaskFlags set).radio.flags = s.radio.flags &&& ~~~set := by
  unfold State.clearMaskFlags
  rw [emit_clrFlags_still (emit_still h _), emit_clrMask_flags h]

/-- A driver primitive, or the packet read: the actions whose effect on the interrupt registers the
transceiver model gives (20_memory.md R53, R54). -/
def isPrimitive : Action → Bool
  | .setDio _ | .opmodeCad | .setRate _ _ | .startRxSingle | .startRxCont | .startTx _ | .armScan _ _
  | .readPacket _ _ => true
  | _ => false

/-- A plain primitive leaves the interrupt registers as they stand. -/
theorem emit_primitive_radio {s : State} (hp : s.params.plainRadio) (h : s.radioStill) {a : Action}
    (ha : isPrimitive a = true) : (s.emit a).radio = s.radio := by
  obtain ⟨hc, hm⟩ := hp
  rw [emit_still_radio h]
  have hz : ∀ f : Byte, f &&& ~~~(0 : Byte) = f := by
    intro f; rw [show ~~~(0 : Byte) = BitVec.allOnes 8 from by decide, BitVec.and_allOnes]
  cases a <;> simp [isPrimitive] at ha <;>
    simp only [State.react, State.driverEffect, record_params, hc, hm, State.clearFlags, record_radio, hz]

theorem readStatus_flags {s : State} (h : s.radioStill) (q : StatusReg) :
    (s.readStatus q).radio.flags = s.radio.flags ∧ (s.readStatus q).radio.mask = s.radio.mask := by
  have ht : s.takeStatus q |>.radioStill := by
    unfold State.radioStill State.takeStatus
    split
    · show (s.radio.setPending q _).raises = []
      rw [setPending_raises]; exact h
    · exact h
  unfold State.readStatus
  rw [emit_rd_radio ht]
  unfold State.takeStatus
  split
  · cases q <;> exact ⟨rfl, rfl⟩
  · exact ⟨rfl, rfl⟩

theorem rescan_radio {s : State} (hp : s.params.plainRadio) (h : s.radioStill) :
    s.rescan.radio = s.radio := by
  unfold State.rescan
  rw [emit_primitive_radio (by exact hp) (by exact h) rfl]; rfl

theorem resume_radio {s : State} (hp : s.params.plainRadio) (h : s.radioStill) :
    s.resume.radio = s.radio := by
  unfold State.resume
  split
  · exact rescan_radio hp h
  · exact emit_primitive_radio hp h rfl

theorem readPacket_flags {s : State} (hp : s.params.plainRadio) (h : s.radioStill) :
    s.readPacket.radio.flags = s.radio.flags ∧ s.readPacket.radio.mask = s.radio.mask := by
  unfold State.readPacket
  rw [emit_primitive_radio (by exact hp) (by exact h) rfl]
  exact ⟨rfl, rfl⟩

theorem rxRead_flags {s : State} (hp : s.params.plainRadio) (h : s.radioStill) :
    s.rxRead.radio.flags = s.radio.flags := by
  unfold State.rxRead
  rw [(readPacket_flags (s := s.rxStaged) (by simpa using hp) (rxStaged_still h)).1]
  exact (readStatus_flags h _).1

theorem hopPrep_radio {s : State} (h : s.radioStill) : s.hopPrep.radio = s.radio := by
  unfold State.hopPrep
  simp only [modBlock_radio]
  by_cases h1 : eventWaitUnknown s.block.state <;> by_cases h2 : sfRecognized s.block.sf
  · rw [if_pos h1, if_pos h2, emit_log_radio h]
  · rw [if_pos h1, if_neg h2, emit_log_radio (emit_still h _), emit_log_radio h]
  · rw [if_neg h1, if_pos h2]
  · rw [if_neg h1, if_neg h2, emit_log_radio h]

@[simp] theorem hopPrep_still {s : State} (h : s.radioStill) : s.hopPrep.radioStill := by
  unfold State.radioStill; rw [hopPrep_radio h]; exact h

theorem hopAction_radio {s : State} (hp : s.params.plainRadio) (h : s.radioStill) :
    s.hopAction.radio = s.radio := by
  unfold State.hopAction State.hopper
  rw [modBlock_radio, emit_primitive_radio (by exact hp) (by exact h) rfl]; rfl

theorem detectToRx_radio {s : State} (hp : s.params.plainRadio) (h : s.radioStill) :
    s.detectToRx.radio.flags = 0 ∧ s.detectToRx.radio.mask = s.radio.mask := by
  have h1 : ((s.emit (.setDio dioRx)).modBlock fun b => { b with softEvent := false }).radioStill :=
    modBlock_still (emit_still h _) _
  have h2 := readStatus_still h1 .rssi
  unfold State.detectToRx
  rw [modBlock_radio, emit_primitive_radio (by simpa using hp) (emit_still (modBlock_still h2 _) _) rfl]
  refine ⟨emit_clrFlags_all _, ?_⟩
  rw [emit_clrFlags_mask, modBlock_radio, (readStatus_flags h1 _).2, modBlock_radio,
    emit_primitive_radio hp h rfl]

end Sys2Proof.Machine
end

