-- ==== Sys2Proof/Laws/Classifier.lean ====
section
/-! SUPPORT. What the prologue of an invocation (spec/40_classifier.md R100) leaves alone and what it hands to the
operation: block, time, answers still pending. -/

namespace Sys2Proof.Machine
open Sys2Proof

/-! ### The two reads -/

@[simp] theorem afterReads_block (s : State) : s.afterReads.block = s.block := by simp [State.afterReads]
@[simp] theorem afterReads_now (s : State) : s.afterReads.now = s.now := by simp [State.afterReads]
@[simp] theorem afterReads_parser (s : State) : s.afterReads.parser = s.parser := by simp [State.afterReads]
@[simp] theorem afterReads_script (s : State) : s.afterReads.script = s.script := by simp [State.afterReads]
@[simp] theorem afterReads_params (s : State) : s.afterReads.params = s.params := by simp [State.afterReads]
@[simp] theorem afterReads_pending (s : State) (q : StatusReg) :
    s.afterReads.radio.pending q = s.radio.pending q := by simp [State.afterReads]
@[simp] theorem afterReads_packets (s : State) : s.afterReads.radio.packets = s.radio.packets := by
  simp [State.afterReads]

theorem afterReads_actions (s : State) : s.afterReads.actions = s.actions ++
    [.rd .irqFlags s.latchedFlags, .rd .irqMask (s.emit (.rd .irqFlags s.latchedFlags)).latchedMask] := by
  simp [State.afterReads]

/-- With no radio step between the actions the two reads leave the transceiver as it stands. -/
theorem afterReads_radio {s : State} (h : s.radioStill) : s.afterReads.radio = s.radio := by
  unfold State.afterReads
  rw [emit_rd_radio (emit_still h _), emit_rd_radio h]

/-! ### The prologue -/

/-- The prologue is the two reads and then logs and yields only: what no log and no yield changes, the
prologue changes only as its start does. -/
theorem prologue_of_emit {P : State → Prop} (s : State) (h0 : P s.invocationStart.afterReads)
    (h1 : ∀ u, P u → P (u.emit (.log .masked))) (h2 : ∀ u, P u → P (u.emit .yield)) : P s.prologue := by
  unfold State.prologue
  simp only
  by_cases ha : s.invocationActive = s.invocationFlags
  · rw [if_pos ha]
    split
    · exact h2 _ h0
    · exact h0
  · rw [if_neg ha]
    split
    · exact h2 _ (h1 _ h0)
    · exact h1 _ h0

@[simp] theorem prologue_block (s : State) : s.prologue.block = { s.block with softEvent := false } :=
  prologue_of_emit (P := fun u => u.block = _) s (by simp; rfl) (fun u h => by simpa using h)
    (fun u h => by simpa using h)

@[simp] theorem prologue_now (s : State) : s.prologue.now = s.now :=
  prologue_of_emit (P := fun u => u.now = _) s (by simp; rfl) (fun u h => by simpa using h)
    (fun u h => by simpa using h)

@[simp] theorem prologue_params (s : State) : s.prologue.params = s.params :=
  prologue_of_emit (P := fun u => u.params = _) s (by simp; rfl) (fun u h => by simpa using h)
    (fun u h => by simpa using h)

@[simp] theorem prologue_script (s : State) : s.prologue.script = s.script :=
  prologue_of_emit (P := fun u => u.script = _) s (by simp; rfl) (fun u h => by simpa using h)
    (fun u h => by simpa using h)

@[simp] theorem prologue_parser (s : State) : s.prologue.parser = s.parser :=
  prologue_of_emit (P := fun u => u.parser = _) s (by simp; rfl) (fun u h => by simpa using h)
    (fun u h => by simpa using h)

/-- No answer pending for an operation's read is taken by the prologue. -/
@[simp] theorem prologue_pending (s : State) (q : StatusReg) :
    s.prologue.radio.pending q = s.radio.pending q :=
  prologue_of_emit (P := fun u => u.radio.pending q = _) s (by simp; rfl) (fun u h => by simpa using h)
    (fun u h => by simpa using h)

@[simp] theorem prologue_packets (s : State) : s.prologue.radio.packets = s.radio.packets :=
  prologue_of_emit (P := fun u => u.radio.packets = _) s (by simp; rfl) (fun u h => by simpa using h)
    (fun u h => by simpa using h)

/-- The prologue reads, logs and yields: it arms no scan. -/
theorem armScan_not_mem_prologue (s : State) (ch : Byte) (sf : BitVec 4) :
    .armScan ch sf ∉ s.prologue.actions :=
  prologue_of_emit (P := fun u => .armScan ch sf ∉ u.actions) s
    (by simp [afterReads_actions, State.invocationStart]) (fun u h => by simpa using h)
    (fun u h => by simpa using h)

/-- With no radio step between the actions the prologue leaves the transceiver as it stands. -/
theorem prologue_radio {s : State} (h : s.radioStill) : s.prologue.radio = s.radio :=
  prologue_of_emit (P := fun u => u.radio = s.radio) s (afterReads_radio (s := s.invocationStart) h)
    (fun u hu => by rw [emit_log_radio (by unfold State.radioStill; rw [hu]; exact h), hu])
    (fun u hu => by rw [emit_yield_radio (by unfold State.radioStill; rw [hu]; exact h), hu])

end Sys2Proof.Machine
end

