-- ==== Sys2Proof/Laws/Decode.lean ====
section
/-! SUPPORT. The dispatch word's fields: packed and unpacked again, and each row's mask-and-match test on a packed
word written over the fields. -/

namespace Sys2Proof

theorem Dw.word_getLsbD (d : Dw) (i : Nat) : d.word.getLsbD i =
    if i < 8 then d.active.getLsbD i
    else if i < 11 then d.state.getLsbD (i - 8)
    else if i = 11 then d.hopEn
    else if i = 12 then d.cadEn
    else if i = 13 then d.hs
    else if i < 16 then false
    else d.sf.getLsbD (i - 16) := by
  unfold Dw.word
  simp only [BitVec.getLsbD_append]
  have h1 : ∀ b : Bool, ∀ k, (BitVec.ofBool b).getLsbD k = (decide (k = 0) && b) := by
    intro b k; cases b <;> cases k <;> simp
  simp only [h1]
  by_cases a1 : i < 8
  · simp [a1]
  by_cases a2 : i < 11
  · simp [a1, a2, show i - 8 < 3 by omega]
  by_cases a3 : i = 11
  · subst a3; simp
  by_cases a4 : i = 12
  · subst a4; simp
  by_cases a5 : i = 13
  · subst a5; simp
  by_cases a6 : i < 16
  · have : i = 14 ∨ i = 15 := by omega
    rcases this with rfl | rfl <;> simp
  · simp only [a1, a2, a3, a4, a5, a6, if_false]
    rw [if_neg (by omega), if_neg (by omega), if_neg (by omega), if_neg (by omega), if_neg (by omega)]
    congr 1

/-- Unpacking a packed dispatch word gives its fields back. -/
theorem Dw.ofWord_word (d : Dw) : Dw.ofWord d.word = d := by
  obtain ⟨a, st, h, c, hs, sf⟩ := d
  unfold Dw.ofWord
  congr 1
  · apply BitVec.eq_of_getLsbD_eq; intro i hi
    rw [BitVec.getLsbD_extractLsb', Dw.word_getLsbD]; simp [hi]
  · apply BitVec.eq_of_getLsbD_eq; intro i hi
    rw [BitVec.getLsbD_extractLsb', Dw.word_getLsbD]
    simp [hi, show 8 + i < 11 by omega]
  · rw [← BitVec.getLsbD_eq_getElem, Dw.word_getLsbD]; simp
  · rw [← BitVec.getLsbD_eq_getElem, Dw.word_getLsbD]; simp
  · rw [← BitVec.getLsbD_eq_getElem, Dw.word_getLsbD]; simp
  · apply BitVec.eq_of_getLsbD_eq; intro i hi
    rw [BitVec.getLsbD_extractLsb', Dw.word_getLsbD]
    simp [hi, show ¬ 16 + i < 8 by omega, show ¬ 16 + i < 11 by omega, show ¬ 16 + i = 11 by omega,
      show ¬ 16 + i = 12 by omega, show ¬ 16 + i = 13 by omega]

/-- The reserved bits of a packed dispatch word are 0 (30_encoding.md R80). -/
theorem Dw.word_reserved (d : Dw) : d.word.extractLsb' 14 2 = 0 := by
  apply BitVec.eq_of_getLsbD_eq; intro i hi
  rw [BitVec.getLsbD_extractLsb', Dw.word_getLsbD]
  have : i = 0 ∨ i = 1 := by omega
  rcases this with rfl | rfl <;> simp

/-- Packing an unpacked dispatch word whose reserved bits are 0 gives the word back. -/
theorem Dw.word_ofWord {w : BitVec 20} (h : w.extractLsb' 14 2 = 0) : (Dw.ofWord w).word = w := by
  apply BitVec.eq_of_getLsbD_eq; intro i hi
  rw [Dw.word_getLsbD]
  unfold Dw.ofWord
  by_cases a1 : i < 8
  · simp [a1]
  by_cases a2 : i < 11
  · simp [a1, a2, show i - 8 < 3 by omega, show 8 + (i - 8) = i by omega]
  by_cases a3 : i = 11
  · subst a3; simp
  by_cases a4 : i = 12
  · subst a4; simp
  by_cases a5 : i = 13
  · subst a5; simp
  by_cases a6 : i < 16
  · have hb := congrArg (fun v : BitVec 2 => v.getLsbD (i - 14)) h
    simp only [BitVec.getLsbD_extractLsb', show i - 14 < 2 by omega, decide_true, Bool.true_and,
      show 14 + (i - 14) = i by omega] at hb
    simp [a1, a2, a3, a4, a5, a6, hb]
  · simp only [a1, a2, a3, a4, a5, a6, if_false, BitVec.getLsbD_extractLsb']
    simp [show i - 16 < 4 by omega, show 16 + (i - 16) = i by omega]

/-- A packed word under a mask equals a pattern exactly when each field under the mask's field equals the
pattern's, for a pattern whose reserved bits are 0. -/
theorem Dw.word_and_eq (d : Dw) (m p : BitVec 20) (hp : p.extractLsb' 14 2 = 0) :
    (d.word &&& m) = p ↔
      d.active &&& (Dw.ofWord m).active = (Dw.ofWord p).active ∧
      d.state &&& (Dw.ofWord m).state = (Dw.ofWord p).state ∧
      (d.hopEn && (Dw.ofWord m).hopEn) = (Dw.ofWord p).hopEn ∧
      (d.cadEn && (Dw.ofWord m).cadEn) = (Dw.ofWord p).cadEn ∧
      (d.hs && (Dw.ofWord m).hs) = (Dw.ofWord p).hs ∧
      d.sf &&& (Dw.ofWord m).sf = (Dw.ofWord p).sf := by
  have hr : (d.word &&& m).extractLsb' 14 2 = 0 := by
    rw [BitVec.extractLsb'_and, Dw.word_reserved]; simp
  have hf : Dw.ofWord (d.word &&& m) =
      { active := d.active &&& (Dw.ofWord m).active, state := d.state &&& (Dw.ofWord m).state,
        hopEn := d.hopEn && (Dw.ofWord m).hopEn, cadEn := d.cadEn && (Dw.ofWord m).cadEn,
        hs := d.hs && (Dw.ofWord m).hs, sf := d.sf &&& (Dw.ofWord m).sf } := by
    have hd := Dw.ofWord_word d
    have e1 := congrArg Dw.active hd
    have e2 := congrArg Dw.state hd
    have e3 := congrArg Dw.hopEn hd
    have e4 := congrArg Dw.cadEn hd
    have e5 := congrArg Dw.hs hd
    have e6 := congrArg Dw.sf hd
    simp only [Dw.ofWord] at e1 e2 e3 e4 e5 e6
    simp only [Dw.ofWord, BitVec.extractLsb'_and, BitVec.getElem_and, e1, e2, e3, e4, e5, e6]
  constructor
  · intro h
    have := congrArg Dw.ofWord h
    rw [hf] at this
    rw [← this]
    simp
  · rintro ⟨h1, h2, h3, h4, h5, h6⟩
    rw [← Dw.word_ofWord hr, ← Dw.word_ofWord hp, hf, h1, h2, h3, h4, h5, h6]

/-! ### Each row's mask-and-match test, over the fields (30_encoding.md R83, R84) -/

theorem rowTest_hop (d : Dw) : (d.word &&& 0x02000) = 0x02000 ↔ d.hs = true := by
  have hm : Dw.ofWord 0x02000 = ⟨0x00, 0, false, false, true, 0⟩ := by decide
  rw [Dw.word_and_eq d _ _ (by decide)]
  simp only [hm]
  obtain ⟨a, st, h, c, hs, sf⟩ := d
  have ha : (a &&& 0x00 = 0x00) ↔ (True) := by revert a; decide
  have hst : (st &&& 0 = 0) ↔ (True) := by revert st; decide
  simp only [ha, hst]
  have hf : sf &&& 0 = 0 := by simp
  simp only [hf, Bool.and_true, Bool.and_false, true_and, and_true]
  try tauto

theorem rowTest_init (d : Dw) : (d.word &&& 0x02700) = 0x00000 ↔ d.hs = false ∧ d.state = 0 := by
  have hm : Dw.ofWord 0x02700 = ⟨0x00, 7, false, false, true, 0⟩ := by decide
  have hp : Dw.ofWord 0x00000 = ⟨0x00, 0, false, false, false, 0⟩ := by decide
  rw [Dw.word_and_eq d _ _ (by decide)]
  simp only [hm, hp]
  obtain ⟨a, st, h, c, hs, sf⟩ := d
  have ha : (a &&& 0x00 = 0x00) ↔ (True) := by revert a; decide
  have hst : (st &&& 7 = 0) ↔ (st = 0) := by revert st; decide
  simp only [ha, hst]
  have hf : sf &&& 0 = 0 := by simp
  simp only [hf, Bool.and_true, Bool.and_false, true_and, and_true]
  try tauto

theorem rowTest_scanDet (d : Dw) : (d.word &&& 0x02701) = 0x00101 ↔ d.hs = false ∧ d.state = 1 ∧ d.active[0] = true := by
  have hm : Dw.ofWord 0x02701 = ⟨0x01, 7, false, false, true, 0⟩ := by decide
  have hp : Dw.ofWord 0x00101 = ⟨0x01, 1, false, false, false, 0⟩ := by decide
  rw [Dw.word_and_eq d _ _ (by decide)]
  simp only [hm, hp]
  obtain ⟨a, st, h, c, hs, sf⟩ := d
  have ha : (a &&& 0x01 = 0x01) ↔ (a[0] = true) := by revert a; decide
  have hst : (st &&& 7 = 1) ↔ (st = 1) := by revert st; decide
  simp only [ha, hst]
  have hf : sf &&& 0 = 0 := by simp
  simp only [hf, Bool.and_true, Bool.and_false, true_and, and_true]
  try tauto

theorem rowTest_scanDone (d : Dw) : (d.word &&& 0x02705) = 0x00104 ↔ d.hs = false ∧ d.state = 1 ∧ d.active[0] = false ∧ d.active[2] = true := by
  have hm : Dw.ofWord 0x02705 = ⟨0x05, 7, false, false, true, 0⟩ := by decide
  have hp : Dw.ofWord 0x00104 = ⟨0x04, 1, false, false, false, 0⟩ := by decide
  rw [Dw.word_and_eq d _ _ (by decide)]
  simp only [hm, hp]
  obtain ⟨a, st, h, c, hs, sf⟩ := d
  have ha : (a &&& 0x05 = 0x04) ↔ (a[0] = false ∧ a[2] = true) := by revert a; decide
  have hst : (st &&& 7 = 1) ↔ (st = 1) := by revert st; decide
  simp only [ha, hst]
  have hf : sf &&& 0 = 0 := by simp
  simp only [hf, Bool.and_true, Bool.and_false, true_and, and_true]
  try tauto

theorem rowTest_scanIdle (d : Dw) : (d.word &&& 0x027FF) = 0x00100 ↔ d.hs = false ∧ d.state = 1 ∧ d.active = 0 := by
  have hm : Dw.ofWord 0x027FF = ⟨0xFF, 7, false, false, true, 0⟩ := by decide
  have hp : Dw.ofWord 0x00100 = ⟨0x00, 1, false, false, false, 0⟩ := by decide
  rw [Dw.word_and_eq d _ _ (by decide)]
  simp only [hm, hp]
  obtain ⟨a, st, h, c, hs, sf⟩ := d
  have ha : (a &&& 0xFF = 0x00) ↔ (a = 0) := by revert a; decide
  have hst : (st &&& 7 = 1) ↔ (st = 1) := by revert st; decide
  simp only [ha, hst]
  have hf : sf &&& 0 = 0 := by simp
  simp only [hf, Bool.and_true, Bool.and_false, true_and, and_true]
  try tauto

theorem rowTest_scanUnk (d : Dw) : (d.word &&& 0x02705) = 0x00100 ↔ d.hs = false ∧ d.state = 1 ∧ d.active[0] = false ∧ d.active[2] = false := by
  have hm : Dw.ofWord 0x02705 = ⟨0x05, 7, false, false, true, 0⟩ := by decide
  have hp : Dw.ofWord 0x00100 = ⟨0x00, 1, false, false, false, 0⟩ := by decide
  rw [Dw.word_and_eq d _ _ (by decide)]
  simp only [hm, hp]
  obtain ⟨a, st, h, c, hs, sf⟩ := d
  have ha : (a &&& 0x05 = 0x00) ↔ (a[0] = false ∧ a[2] = false) := by revert a; decide
  have hst : (st &&& 7 = 1) ↔ (st = 1) := by revert st; decide
  simp only [ha, hst]
  have hf : sf &&& 0 = 0 := by simp
  simp only [hf, Bool.and_true, Bool.and_false, true_and, and_true]
  try tauto

theorem rowTest_cadDet (d : Dw) : (d.word &&& 0x02701) = 0x00201 ↔ d.hs = false ∧ d.state = 2 ∧ d.active[0] = true := by
  have hm : Dw.ofWord 0x02701 = ⟨0x01, 7, false, false, true, 0⟩ := by decide
  have hp : Dw.ofWord 0x00201 = ⟨0x01, 2, false, false, false, 0⟩ := by decide
  rw [Dw.word_and_eq d _ _ (by decide)]
  simp only [hm, hp]
  obtain ⟨a, st, h, c, hs, sf⟩ := d
  have ha : (a &&& 0x01 = 0x01) ↔ (a[0] = true) := by revert a; decide
  have hst : (st &&& 7 = 2) ↔ (st = 2) := by revert st; decide
  simp only [ha, hst]
  have hf : sf &&& 0 = 0 := by simp
  simp only [hf, Bool.and_true, Bool.and_false, true_and, and_true]
  try tauto

theorem rowTest_cadDone (d : Dw) : (d.word &&& 0x02705) = 0x00204 ↔ d.hs = false ∧ d.state = 2 ∧ d.active[0] = false ∧ d.active[2] = true := by
  have hm : Dw.ofWord 0x02705 = ⟨0x05, 7, false, false, true, 0⟩ := by decide
  have hp : Dw.ofWord 0x00204 = ⟨0x04, 2, false, false, false, 0⟩ := by decide
  rw [Dw.word_and_eq d _ _ (by decide)]
  simp only [hm, hp]
  obtain ⟨a, st, h, c, hs, sf⟩ := d
  have ha : (a &&& 0x05 = 0x04) ↔ (a[0] = false ∧ a[2] = true) := by revert a; decide
  have hst : (st &&& 7 = 2) ↔ (st = 2) := by revert st; decide
  simp only [ha, hst]
  have hf : sf &&& 0 = 0 := by simp
  simp only [hf, Bool.and_true, Bool.and_false, true_and, and_true]
  try tauto

theorem rowTest_cadIdle (d : Dw) : (d.word &&& 0x027FF) = 0x00200 ↔ d.hs = false ∧ d.state = 2 ∧ d.active = 0 := by
  have hm : Dw.ofWord 0x027FF = ⟨0xFF, 7, false, false, true, 0⟩ := by decide
  have hp : Dw.ofWord 0x00200 = ⟨0x00, 2, false, false, false, 0⟩ := by decide
  rw [Dw.word_and_eq d _ _ (by decide)]
  simp only [hm, hp]
  obtain ⟨a, st, h, c, hs, sf⟩ := d
  have ha : (a &&& 0xFF = 0x00) ↔ (a = 0) := by revert a; decide
  have hst : (st &&& 7 = 2) ↔ (st = 2) := by revert st; decide
  simp only [ha, hst]
  have hf : sf &&& 0 = 0 := by simp
  simp only [hf, Bool.and_true, Bool.and_false, true_and, and_true]
  try tauto

theorem rowTest_cadUnk (d : Dw) : (d.word &&& 0x02705) = 0x00200 ↔ d.hs = false ∧ d.state = 2 ∧ d.active[0] = false ∧ d.active[2] = false := by
  have hm : Dw.ofWord 0x02705 = ⟨0x05, 7, false, false, true, 0⟩ := by decide
  have hp : Dw.ofWord 0x00200 = ⟨0x00, 2, false, false, false, 0⟩ := by decide
  rw [Dw.word_and_eq d _ _ (by decide)]
  simp only [hm, hp]
  obtain ⟨a, st, h, c, hs, sf⟩ := d
  have ha : (a &&& 0x05 = 0x00) ↔ (a[0] = false ∧ a[2] = false) := by revert a; decide
  have hst : (st &&& 7 = 2) ↔ (st = 2) := by revert st; decide
  simp only [ha, hst]
  have hf : sf &&& 0 = 0 := by simp
  simp only [hf, Bool.and_true, Bool.and_false, true_and, and_true]
  try tauto

theorem rowTest_rxDone (d : Dw) : (d.word &&& 0x02740) = 0x00340 ↔ d.hs = false ∧ d.state = 3 ∧ d.active[6] = true := by
  have hm : Dw.ofWord 0x02740 = ⟨0x40, 7, false, false, true, 0⟩ := by decide
  have hp : Dw.ofWord 0x00340 = ⟨0x40, 3, false, false, false, 0⟩ := by decide
  rw [Dw.word_and_eq d _ _ (by decide)]
  simp only [hm, hp]
  obtain ⟨a, st, h, c, hs, sf⟩ := d
  have ha : (a &&& 0x40 = 0x40) ↔ (a[6] = true) := by revert a; decide
  have hst : (st &&& 7 = 3) ↔ (st = 3) := by revert st; decide
  simp only [ha, hst]
  have hf : sf &&& 0 = 0 := by simp
  simp only [hf, Bool.and_true, Bool.and_false, true_and, and_true]
  try tauto

theorem rowTest_rxTimeout (d : Dw) : (d.word &&& 0x027C0) = 0x00380 ↔ d.hs = false ∧ d.state = 3 ∧ d.active[6] = false ∧ d.active[7] = true := by
  have hm : Dw.ofWord 0x027C0 = ⟨0xC0, 7, false, false, true, 0⟩ := by decide
  have hp : Dw.ofWord 0x00380 = ⟨0x80, 3, false, false, false, 0⟩ := by decide
  rw [Dw.word_and_eq d _ _ (by decide)]
  simp only [hm, hp]
  obtain ⟨a, st, h, c, hs, sf⟩ := d
  have ha : (a &&& 0xC0 = 0x80) ↔ (a[6] = false ∧ a[7] = true) := by revert a; decide
  have hst : (st &&& 7 = 3) ↔ (st = 3) := by revert st; decide
  simp only [ha, hst]
  have hf : sf &&& 0 = 0 := by simp
  simp only [hf, Bool.and_true, Bool.and_false, true_and, and_true]
  try tauto

theorem rowTest_rxHdr (d : Dw) : (d.word &&& 0x027FF) = 0x00310 ↔ d.hs = false ∧ d.state = 3 ∧ d.active = 0x10 := by
  have hm : Dw.ofWord 0x027FF = ⟨0xFF, 7, false, false, true, 0⟩ := by decide
  have hp : Dw.ofWord 0x00310 = ⟨0x10, 3, false, false, false, 0⟩ := by decide
  rw [Dw.word_and_eq d _ _ (by decide)]
  simp only [hm, hp]
  obtain ⟨a, st, h, c, hs, sf⟩ := d
  have ha : (a &&& 0xFF = 0x10) ↔ (a = 0x10) := by revert a; decide
  have hst : (st &&& 7 = 3) ↔ (st = 3) := by revert st; decide
  simp only [ha, hst]
  have hf : sf &&& 0 = 0 := by simp
  simp only [hf, Bool.and_true, Bool.and_false, true_and, and_true]
  try tauto

theorem rowTest_rxIdle (d : Dw) : (d.word &&& 0x027FF) = 0x00300 ↔ d.hs = false ∧ d.state = 3 ∧ d.active = 0 := by
  have hm : Dw.ofWord 0x027FF = ⟨0xFF, 7, false, false, true, 0⟩ := by decide
  have hp : Dw.ofWord 0x00300 = ⟨0x00, 3, false, false, false, 0⟩ := by decide
  rw [Dw.word_and_eq d _ _ (by decide)]
  simp only [hm, hp]
  obtain ⟨a, st, h, c, hs, sf⟩ := d
  have ha : (a &&& 0xFF = 0x00) ↔ (a = 0) := by revert a; decide
  have hst : (st &&& 7 = 3) ↔ (st = 3) := by revert st; decide
  simp only [ha, hst]
  have hf : sf &&& 0 = 0 := by simp
  simp only [hf, Bool.and_true, Bool.and_false, true_and, and_true]
  try tauto

theorem rowTest_rxUnk (d : Dw) : (d.word &&& 0x027C0) = 0x00300 ↔ d.hs = false ∧ d.state = 3 ∧ d.active[6] = false ∧ d.active[7] = false := by
  have hm : Dw.ofWord 0x027C0 = ⟨0xC0, 7, false, false, true, 0⟩ := by decide
  have hp : Dw.ofWord 0x00300 = ⟨0x00, 3, false, false, false, 0⟩ := by decide
  rw [Dw.word_and_eq d _ _ (by decide)]
  simp only [hm, hp]
  obtain ⟨a, st, h, c, hs, sf⟩ := d
  have ha : (a &&& 0xC0 = 0x00) ↔ (a[6] = false ∧ a[7] = false) := by revert a; decide
  have hst : (st &&& 7 = 3) ↔ (st = 3) := by revert st; decide
  simp only [ha, hst]
  have hf : sf &&& 0 = 0 := by simp
  simp only [hf, Bool.and_true, Bool.and_false, true_and, and_true]
  try tauto

theorem rowTest_tx (d : Dw) : (d.word &&& 0x02700) = 0x00400 ↔ d.hs = false ∧ d.state = 4 := by
  have hm : Dw.ofWord 0x02700 = ⟨0x00, 7, false, false, true, 0⟩ := by decide
  have hp : Dw.ofWord 0x00400 = ⟨0x00, 4, false, false, false, 0⟩ := by decide
  rw [Dw.word_and_eq d _ _ (by decide)]
  simp only [hm, hp]
  obtain ⟨a, st, h, c, hs, sf⟩ := d
  have ha : (a &&& 0x00 = 0x00) ↔ (True) := by revert a; decide
  have hst : (st &&& 7 = 4) ↔ (st = 4) := by revert st; decide
  simp only [ha, hst]
  have hf : sf &&& 0 = 0 := by simp
  simp only [hf, Bool.and_true, Bool.and_false, true_and, and_true]
  try tauto

theorem rowTest_txdoneOk (d : Dw) : (d.word &&& 0x02708) = 0x00508 ↔ d.hs = false ∧ d.state = 5 ∧ d.active[3] = true := by
  have hm : Dw.ofWord 0x02708 = ⟨0x08, 7, false, false, true, 0⟩ := by decide
  have hp : Dw.ofWord 0x00508 = ⟨0x08, 5, false, false, false, 0⟩ := by decide
  rw [Dw.word_and_eq d _ _ (by decide)]
  simp only [hm, hp]
  obtain ⟨a, st, h, c, hs, sf⟩ := d
  have ha : (a &&& 0x08 = 0x08) ↔ (a[3] = true) := by revert a; decide
  have hst : (st &&& 7 = 5) ↔ (st = 5) := by revert st; decide
  simp only [ha, hst]
  have hf : sf &&& 0 = 0 := by simp
  simp only [hf, Bool.and_true, Bool.and_false, true_and, and_true]
  try tauto

theorem rowTest_txdoneWait (d : Dw) : (d.word &&& 0x027FF) = 0x00500 ↔ d.hs = false ∧ d.state = 5 ∧ d.active = 0 := by
  have hm : Dw.ofWord 0x027FF = ⟨0xFF, 7, false, false, true, 0⟩ := by decide
  have hp : Dw.ofWord 0x00500 = ⟨0x00, 5, false, false, false, 0⟩ := by decide
  rw [Dw.word_and_eq d _ _ (by decide)]
  simp only [hm, hp]
  obtain ⟨a, st, h, c, hs, sf⟩ := d
  have ha : (a &&& 0xFF = 0x00) ↔ (a = 0) := by revert a; decide
  have hst : (st &&& 7 = 5) ↔ (st = 5) := by revert st; decide
  simp only [ha, hst]
  have hf : sf &&& 0 = 0 := by simp
  simp only [hf, Bool.and_true, Bool.and_false, true_and, and_true]
  try tauto

theorem rowTest_txdoneUnk (d : Dw) : (d.word &&& 0x02708) = 0x00500 ↔ d.hs = false ∧ d.state = 5 ∧ d.active[3] = false := by
  have hm : Dw.ofWord 0x02708 = ⟨0x08, 7, false, false, true, 0⟩ := by decide
  have hp : Dw.ofWord 0x00500 = ⟨0x00, 5, false, false, false, 0⟩ := by decide
  rw [Dw.word_and_eq d _ _ (by decide)]
  simp only [hm, hp]
  obtain ⟨a, st, h, c, hs, sf⟩ := d
  have ha : (a &&& 0x08 = 0x00) ↔ (a[3] = false) := by revert a; decide
  have hst : (st &&& 7 = 5) ↔ (st = 5) := by revert st; decide
  simp only [ha, hst]
  have hf : sf &&& 0 = 0 := by simp
  simp only [hf, Bool.and_true, Bool.and_false, true_and, and_true]
  try tauto

theorem rowTest_badState (d : Dw) : (d.word &&& 0x02600) = 0x00600 ↔ d.hs = false ∧ (d.state = 6 ∨ d.state = 7) := by
  have hm : Dw.ofWord 0x02600 = ⟨0x00, 6, false, false, true, 0⟩ := by decide
  have hp : Dw.ofWord 0x00600 = ⟨0x00, 6, false, false, false, 0⟩ := by decide
  rw [Dw.word_and_eq d _ _ (by decide)]
  simp only [hm, hp]
  obtain ⟨a, st, h, c, hs, sf⟩ := d
  have ha : (a &&& 0x00 = 0x00) ↔ (True) := by revert a; decide
  have hst : (st &&& 6 = 6) ↔ (st = 6 ∨ st = 7) := by revert st; decide
  simp only [ha, hst]
  have hf : sf &&& 0 = 0 := by simp
  simp only [hf, Bool.and_true, Bool.and_false, true_and, and_true]
  try tauto

/-! ### Host words -/

@[simp] theorem hostW_hostWord (w : Bool) (reg : BitVec 7) (data : Word) : hostW (hostWord w reg data) = w := by
  unfold hostW hostWord
  rw [← BitVec.getLsbD_eq_getElem, BitVec.getLsbD_append, BitVec.getLsbD_append]
  simp

@[simp] theorem hostReg_hostWord (w : Bool) (reg : BitVec 7) (data : Word) :
    hostReg (hostWord w reg data) = reg := by
  unfold hostReg hostWord
  apply BitVec.eq_of_getLsbD_eq; intro i hi
  rw [BitVec.getLsbD_extractLsb', BitVec.getLsbD_append, BitVec.getLsbD_append]
  simp [hi]

@[simp] theorem hostData_hostWord (w : Bool) (reg : BitVec 7) (data : Word) :
    hostData (hostWord w reg data) = data := by
  unfold hostData hostWord
  apply BitVec.eq_of_getLsbD_eq; intro i hi
  rw [BitVec.getLsbD_extractLsb', BitVec.getLsbD_append, BitVec.getLsbD_append]
  simp [hi]

end Sys2Proof
end

