-- ==== Sys2Proof/Laws/PerInstr.lean ====
section
/-! SUPPORT. One family of per-instruction facts: the code `encode` writes for a well-formed operation lies in its
row of spec/opcode_table.json, under the table's own mask and match (spec/30_encoding.md R83, spec/45_host.md
R205). -/

namespace Sys2Proof.Laws.MatchesRow
open Sys2Proof

set_option linter.unusedSimpArgs false

/-- A row's mask and match, as spec/opcode_table.json gives them. -/
inductive RowPattern where
  | dw (mask pat : BitVec 20)
  | host (mask pat : BitVec 40)
  | signal
deriving DecidableEq, Repr

/-- The operation's row of spec/opcode_table.json. -/
def rowPattern : Instr → RowPattern
  | .hopDoneTo _ => .dw 0x02000 0x02000
  | .hopEventTo _ => .dw 0x02000 0x02000
  | .hopIdle _ => .dw 0x02000 0x02000
  | .init _ => .dw 0x02700 0x00000
  | .scanDet _ => .dw 0x02701 0x00101
  | .scanDone _ => .dw 0x02705 0x00104
  | .scanIdle _ => .dw 0x027FF 0x00100
  | .scanUnk _ => .dw 0x02705 0x00100
  | .cadDet _ => .dw 0x02701 0x00201
  | .cadStep _ => .dw 0x02705 0x00204
  | .cadWrap _ => .dw 0x02705 0x00204
  | .cadIdle _ => .dw 0x027FF 0x00200
  | .cadUnk _ => .dw 0x02705 0x00200
  | .rxCrcerr _ => .dw 0x02740 0x00340
  | .rxReadfail _ => .dw 0x02740 0x00340
  | .rxOk _ => .dw 0x02740 0x00340
  | .rxTimeout _ => .dw 0x027C0 0x00380
  | .rxHdr _ => .dw 0x027FF 0x00310
  | .rxIdle _ => .dw 0x027FF 0x00300
  | .rxUnk _ => .dw 0x027C0 0x00300
  | .tx _ => .dw 0x02700 0x00400
  | .txdoneOk _ => .dw 0x02708 0x00508
  | .txdoneWait _ => .dw 0x027FF 0x00500
  | .txdoneUnk _ => .dw 0x02708 0x00500
  | .badState _ => .dw 0x02600 0x00600
  | .hRead _ _ => .host 0x8000000000 0x0000000000
  | .hCfgWrite _ => .host 0xFF00000000 0x8000000000
  | .hOutWrite _ _ => .host 0xF800000000 0x9800000000
  | .hOutPayloadWrite _ => .host 0xFF00000000 0xA000000000
  | .hTxRequest => .host 0xFFFFFFFFFF 0x8200000001
  | .reset => .signal

/-- A code lies in a row: a word under the row's mask equals its match. -/
def fits : Code → RowPattern → Prop
  | .dw w, .dw mask pat => w &&& mask = pat
  | .host w, .host mask pat => w &&& mask = pat
  | .resetSignal, .signal => True
  | _, _ => False

/-- What the family says of each operation. -/
def Statement (i : Instr) : Prop := i.wellFormed = true → fits (encode i) (rowPattern i)

/-- A host word whose W bit and register are given, under a mask of those bits alone. -/
theorem hostWord_and (write : Bool) (reg : BitVec 7) (data : Word) (mw : Bool) (mreg : BitVec 7) :
    hostWord write reg data &&& hostWord mw mreg 0 = hostWord (write && mw) (reg &&& mreg) 0 := by
  unfold hostWord
  rw [BitVec.and_append, BitVec.and_append]
  cases write <;> cases mw <;> simp

theorem hopDoneTo (d : Dw) : Statement (.hopDoneTo d) := by
  intro h
  have h' := h
  simp only [Instr.wellFormed, Bool.and_eq_true, Bool.or_eq_true, Bool.not_eq_true', beq_iff_eq, bne_iff_ne,
    decide_eq_true_eq] at h'
  exact (rowTest_hop d).2 (by tauto)

theorem hopEventTo (d : Dw) : Statement (.hopEventTo d) := by
  intro h
  have h' := h
  simp only [Instr.wellFormed, Bool.and_eq_true, Bool.or_eq_true, Bool.not_eq_true', beq_iff_eq, bne_iff_ne,
    decide_eq_true_eq] at h'
  exact (rowTest_hop d).2 (by tauto)

theorem hopIdle (d : Dw) : Statement (.hopIdle d) := by
  intro h
  have h' := h
  simp only [Instr.wellFormed, Bool.and_eq_true, Bool.or_eq_true, Bool.not_eq_true', beq_iff_eq, bne_iff_ne,
    decide_eq_true_eq] at h'
  exact (rowTest_hop d).2 (by tauto)

theorem init (d : Dw) : Statement (.init d) := by
  intro h
  have h' := h
  simp only [Instr.wellFormed, Bool.and_eq_true, Bool.or_eq_true, Bool.not_eq_true', beq_iff_eq, bne_iff_ne,
    decide_eq_true_eq] at h'
  exact (rowTest_init d).2 (by tauto)

theorem scanDet (d : Dw) : Statement (.scanDet d) := by
  intro h
  have h' := h
  simp only [Instr.wellFormed, Bool.and_eq_true, Bool.or_eq_true, Bool.not_eq_true', beq_iff_eq, bne_iff_ne,
    decide_eq_true_eq] at h'
  exact (rowTest_scanDet d).2 (by tauto)

theorem scanDone (d : Dw) : Statement (.scanDone d) := by
  intro h
  have h' := h
  simp only [Instr.wellFormed, Bool.and_eq_true, Bool.or_eq_true, Bool.not_eq_true', beq_iff_eq, bne_iff_ne,
    decide_eq_true_eq] at h'
  exact (rowTest_scanDone d).2 (by tauto)

theorem scanIdle (d : Dw) : Statement (.scanIdle d) := by
  intro h
  have h' := h
  simp only [Instr.wellFormed, Bool.and_eq_true, Bool.or_eq_true, Bool.not_eq_true', beq_iff_eq, bne_iff_ne,
    decide_eq_true_eq] at h'
  exact (rowTest_scanIdle d).2 (by tauto)

theorem scanUnk (d : Dw) : Statement (.scanUnk d) := by
  intro h
  have h' := h
  simp only [Instr.wellFormed, Bool.and_eq_true, Bool.or_eq_true, Bool.not_eq_true', beq_iff_eq, bne_iff_ne,
    decide_eq_true_eq] at h'
  exact (rowTest_scanUnk d).2 (by tauto)

theorem cadDet (d : Dw) : Statement (.cadDet d) := by
  intro h
  have h' := h
  simp only [Instr.wellFormed, Bool.and_eq_true, Bool.or_eq_true, Bool.not_eq_true', beq_iff_eq, bne_iff_ne,
    decide_eq_true_eq] at h'
  exact (rowTest_cadDet d).2 (by tauto)

theorem cadStep (d : Dw) : Statement (.cadStep d) := by
  intro h
  have h' := h
  simp only [Instr.wellFormed, Bool.and_eq_true, Bool.or_eq_true, Bool.not_eq_true', beq_iff_eq, bne_iff_ne,
    decide_eq_true_eq] at h'
  exact (rowTest_cadDone d).2 (by tauto)

theorem cadWrap (d : Dw) : Statement (.cadWrap d) := by
  intro h
  have h' := h
  simp only [Instr.wellFormed, Bool.and_eq_true, Bool.or_eq_true, Bool.not_eq_true', beq_iff_eq, bne_iff_ne,
    decide_eq_true_eq] at h'
  exact (rowTest_cadDone d).2 (by tauto)

theorem cadIdle (d : Dw) : Statement (.cadIdle d) := by
  intro h
  have h' := h
  simp only [Instr.wellFormed, Bool.and_eq_true, Bool.or_eq_true, Bool.not_eq_true', beq_iff_eq, bne_iff_ne,
    decide_eq_true_eq] at h'
  exact (rowTest_cadIdle d).2 (by tauto)

theorem cadUnk (d : Dw) : Statement (.cadUnk d) := by
  intro h
  have h' := h
  simp only [Instr.wellFormed, Bool.and_eq_true, Bool.or_eq_true, Bool.not_eq_true', beq_iff_eq, bne_iff_ne,
    decide_eq_true_eq] at h'
  exact (rowTest_cadUnk d).2 (by tauto)

theorem rxCrcerr (d : Dw) : Statement (.rxCrcerr d) := by
  intro h
  have h' := h
  simp only [Instr.wellFormed, Bool.and_eq_true, Bool.or_eq_true, Bool.not_eq_true', beq_iff_eq, bne_iff_ne,
    decide_eq_true_eq] at h'
  exact (rowTest_rxDone d).2 (by tauto)

theorem rxReadfail (d : Dw) : Statement (.rxReadfail d) := by
  intro h
  have h' := h
  simp only [Instr.wellFormed, Bool.and_eq_true, Bool.or_eq_true, Bool.not_eq_true', beq_iff_eq, bne_iff_ne,
    decide_eq_true_eq] at h'
  exact (rowTest_rxDone d).2 (by tauto)

theorem rxOk (d : Dw) : Statement (.rxOk d) := by
  intro h
  have h' := h
  simp only [Instr.wellFormed, Bool.and_eq_true, Bool.or_eq_true, Bool.not_eq_true', beq_iff_eq, bne_iff_ne,
    decide_eq_true_eq] at h'
  exact (rowTest_rxDone d).2 (by tauto)

theorem rxTimeout (d : Dw) : Statement (.rxTimeout d) := by
  intro h
  have h' := h
  simp only [Instr.wellFormed, Bool.and_eq_true, Bool.or_eq_true, Bool.not_eq_true', beq_iff_eq, bne_iff_ne,
    decide_eq_true_eq] at h'
  exact (rowTest_rxTimeout d).2 (by tauto)

theorem rxHdr (d : Dw) : Statement (.rxHdr d) := by
  intro h
  have h' := h
  simp only [Instr.wellFormed, Bool.and_eq_true, Bool.or_eq_true, Bool.not_eq_true', beq_iff_eq, bne_iff_ne,
    decide_eq_true_eq] at h'
  exact (rowTest_rxHdr d).2 (by tauto)

theorem rxIdle (d : Dw) : Statement (.rxIdle d) := by
  intro h
  have h' := h
  simp only [Instr.wellFormed, Bool.and_eq_true, Bool.or_eq_true, Bool.not_eq_true', beq_iff_eq, bne_iff_ne,
    decide_eq_true_eq] at h'
  exact (rowTest_rxIdle d).2 (by tauto)

theorem rxUnk (d : Dw) : Statement (.rxUnk d) := by
  intro h
  have h' := h
  simp only [Instr.wellFormed, Bool.and_eq_true, Bool.or_eq_true, Bool.not_eq_true', beq_iff_eq, bne_iff_ne,
    decide_eq_true_eq] at h'
  exact (rowTest_rxUnk d).2 (by tauto)

theorem tx (d : Dw) : Statement (.tx d) := by
  intro h
  have h' := h
  simp only [Instr.wellFormed, Bool.and_eq_true, Bool.or_eq_true, Bool.not_eq_true', beq_iff_eq, bne_iff_ne,
    decide_eq_true_eq] at h'
  exact (rowTest_tx d).2 (by tauto)

theorem txdoneOk (d : Dw) : Statement (.txdoneOk d) := by
  intro h
  have h' := h
  simp only [Instr.wellFormed, Bool.and_eq_true, Bool.or_eq_true, Bool.not_eq_true', beq_iff_eq, bne_iff_ne,
    decide_eq_true_eq] at h'
  exact (rowTest_txdoneOk d).2 (by tauto)

theorem txdoneWait (d : Dw) : Statement (.txdoneWait d) := by
  intro h
  have h' := h
  simp only [Instr.wellFormed, Bool.and_eq_true, Bool.or_eq_true, Bool.not_eq_true', beq_iff_eq, bne_iff_ne,
    decide_eq_true_eq] at h'
  exact (rowTest_txdoneWait d).2 (by tauto)

theorem txdoneUnk (d : Dw) : Statement (.txdoneUnk d) := by
  intro h
  have h' := h
  simp only [Instr.wellFormed, Bool.and_eq_true, Bool.or_eq_true, Bool.not_eq_true', beq_iff_eq, bne_iff_ne,
    decide_eq_true_eq] at h'
  exact (rowTest_txdoneUnk d).2 (by tauto)

theorem badState (d : Dw) : Statement (.badState d) := by
  intro h
  have h' := h
  simp only [Instr.wellFormed, Bool.and_eq_true, Bool.or_eq_true, Bool.not_eq_true', beq_iff_eq, bne_iff_ne,
    decide_eq_true_eq] at h'
  exact (rowTest_badState d).2 (by tauto)

theorem hRead (reg : BitVec 7) (data : Word) : Statement (.hRead reg data) := by
  intro _
  show hostWord false reg data &&& hostWord true 0 0 = hostWord false 0 0
  rw [hostWord_and]; simp

theorem hCfgWrite (data : Word) : Statement (.hCfgWrite data) := by
  intro _
  show hostWord true 0 data &&& hostWord true 0x7F 0 = hostWord true 0 0
  rw [hostWord_and]; simp

theorem hOutWrite (reg : BitVec 7) (data : Word) : Statement (.hOutWrite reg data) := by
  intro h
  have hr : ∀ r : BitVec 7, outMetaReg r = true → r &&& 0x78 = 0x18 := by decide
  show hostWord true reg data &&& hostWord true 0x78 0 = hostWord true 0x18 0
  rw [hostWord_and, hr reg h]; rfl

theorem hOutPayloadWrite (data : Word) : Statement (.hOutPayloadWrite data) := by
  intro _
  show hostWord true 0x20 data &&& hostWord true 0x7F 0 = hostWord true 0x20 0
  rw [hostWord_and]; rfl

theorem hTxRequest : Statement .hTxRequest := by
  intro _
  show hostWord true 0x02 1 &&& 0xFFFFFFFFFF = 0x8200000001
  decide

theorem reset : Statement .reset := fun _ => trivial

end Sys2Proof.Laws.MatchesRow
end

