-- ==== Sys2Proof/Laws/Step.lean ====
section
/-! SUPPORT. What one step can be, said once: a script entry's step, an invocation, or a step in which nothing
happens. Later proofs cite these and do not unfold `step`, `nextStimulus` or `popped`. -/

namespace Sys2Proof.Machine
open Sys2Proof

theorem popped_of_script {s : State} {x : Stimulus} {rest : List Stimulus} (h : s.script = x :: rest) :
    s.popped = { s with script := rest } := by unfold State.popped; rw [h]

/-- A step with a script entry is that entry's. -/
theorem step_of_script {s : State} {x : Stimulus} {rest : List Stimulus} (h : s.script = x :: rest) :
    step s = ({ s with script := rest } : State).runStimulus x := by
  unfold step State.nextStimulus; rw [popped_of_script h, h]

/-- A step in which the invoker invokes is the invocation. -/
theorem step_of_invokesNext {s : State} (h : s.invokesNext) : step s = s.popped.invoke := by
  unfold step; rw [h]; rfl

/-- With no script entry the next step is an invocation, or the invoker waits. -/
theorem invokesNext_or_waits {s : State} (h : s.script = []) :
    s.invokesNext ∨
      s.trigger = false ∧ step s = .next { s with actions := [], reply := .none, draws := s.draws + 1 } := by
  by_cases hi : (s.trigger || s.untriggeredChoice) = true
  · left; unfold State.invokesNext State.nextStimulus; rw [h]; exact if_pos hi
  · right
    have ht : s.trigger = false := by
      cases ht : s.trigger
      · rfl
      · exact absurd (by rw [ht]; rfl) hi
    refine ⟨ht, ?_⟩
    have hn : s.nextStimulus = none := by unfold State.nextStimulus; rw [h]; exact if_neg hi
    have hp : s.popped = { s with draws := s.draws + 1 } := by
      unfold State.popped; rw [h]; exact if_neg (by rw [ht]; decide)
    unfold step; rw [hn, hp]; rfl

/-- Every step is a script entry's other than INVOKE, an invocation, or a wait. -/
theorem step_cases (s : State) :
    (∃ x rest, s.script = x :: rest ∧ x ≠ .invoke ∧ step s = ({ s with script := rest } : State).runStimulus x) ∨
    (s.invokesNext ∧ step s = s.popped.invoke) ∨
    (s.script = [] ∧ s.trigger = false ∧
      step s = .next { s with actions := [], reply := .none, draws := s.draws + 1 }) := by
  cases h : s.script with
  | nil =>
    rcases invokesNext_or_waits h with hi | ⟨ht, hw⟩
    · exact .inr (.inl ⟨hi, step_of_invokesNext hi⟩)
    · exact .inr (.inr ⟨rfl, ht, by rw [hw, h]⟩)
  | cons x rest =>
    by_cases hx : x = .invoke
    · have hi : s.invokesNext := by unfold State.invokesNext State.nextStimulus; rw [h, hx]
      exact .inr (.inl ⟨hi, step_of_invokesNext hi⟩)
    · exact .inl ⟨x, rest, rfl, hx, step_of_script h⟩

end Sys2Proof.Machine
end

