-- ==== Sys2Proof/Machine/Script.lean ====
section
/-! DEFINITION. The stimulus syntax's host statements and pseudo-statements (spec/30_encoding.md R97, R98), each
the stimuli it stands for. Arguments are the numbers the statements are written with, so that one outside
a register's field gives the word R98 expands it to, which the host interface refuses. -/

namespace Sys2Proof.Machine
open Sys2Proof

/-- `HW <reg>, <value>`: the host word `{1, index, value}`. -/
def hw (reg : BitVec 7) (value : Word) : Stimulus := .host (hostWord true reg value)

/-- `HR <reg>`: the host word `{0, index, 0}`. -/
def hr (reg : BitVec 7) : Stimulus := .host (hostWord false reg 0)

/-- `i<<8 | b`, the DATA of an indexed payload access. -/
def indexedData (i : Nat) (b : Byte) : Word := BitVec.ofNat 32 i <<< 8 ||| b.zeroExtend 32

/-- `HWB OUT[<i>], <b>`: the host word `{1, 0x20, i<<8 | b}`. -/
def hwb (i : Nat) (b : Byte) : Stimulus := hw 0x20 (indexedData i b)

/-- `HRB IN[<i>]`: the host word `{0, 0x21, i<<8}`. -/
def hrb (i : Nat) : Stimulus := .host (hostWord false 0x21 (indexedData i 0))

/-- `CFG hop=<h> cad=<c> model=<m>`: `HW CTRL, (m<<2)|(c<<1)|h`. -/
def cfg (h c m : Word) : Stimulus := hw 0x00 (m <<< 2 ||| c <<< 1 ||| h)

/-- `TXREQ`: `HW CMD, 1`. -/
def txReq : Stimulus := hw 0x02 1

/-- `HWB OUT[i], b0` and so on for the bytes of a payload. -/
def hwbFrom (i : Nat) : List Byte → List Stimulus
  | [] => []
  | b :: rest => hwb i b :: hwbFrom (i + 1) rest

/-- `TXSEND len=<n> tmst=<t> sf=<s> pwr=<p> freq=<f> crc=<c> iq=<q> data=…`, `n` the number of data bytes: the
outbound registers' writes in R98's order, the payload, then `TXREQ`. -/
def txSend (tmst sf : Word) (pwr : Int) (freq crc iq : Word) (data : List Byte) : List Stimulus :=
  [hw 0x18 (BitVec.ofNat 32 data.length), hw 0x19 tmst, hw 0x1A sf, hw 0x1B (BitVec.ofInt 32 pwr &&& 0xFF),
    hw 0x1C freq, hw 0x1D (iq <<< 1 ||| crc)] ++
  hwbFrom 0 data ++ [txReq]

end Sys2Proof.Machine
end

