-- ==== Sys2Proof/Tests/Slice0.lean ====
section
/-! SUPPORT. Tests. Words and expected results come from spec/30_encoding.md and from the vectors of
spec/95_test_vectors.md (their ids stand in the docstrings); then, for every statement with hypotheses, a
concrete case that meets them. -/

namespace Sys2Proof.Tests
open Sys2Proof Sys2Proof.Machine

/-! ### Ill-formed terms -/

/-- A dispatch word with neither hop nor CAD mode enabled. -/
def dwOf (active : Byte) (st : BitVec 3) (hs : Bool) (sf : BitVec 4) : Dw := ⟨active, st, hs, false, hs, sf⟩

theorem test_illformed_hop :
    (Instr.hopDoneTo (dwOf 0 1 false 7)).wellFormed = false ∧
    (Instr.hopEventTo (dwOf 0 2 false 7)).wellFormed = false ∧
    (Instr.hopIdle (dwOf 0 1 false 7)).wellFormed = false := by decide

theorem test_illformed_init_scan :
    (Instr.init (dwOf 0 1 false 7)).wellFormed = false ∧ (Instr.init (dwOf 0 0 true 7)).wellFormed = false ∧
    (Instr.scanDet (dwOf 0x04 1 false 7)).wellFormed = false ∧
    (Instr.scanDone (dwOf 0x05 1 false 7)).wellFormed = false ∧
    (Instr.scanIdle (dwOf 0x02 1 false 7)).wellFormed = false ∧
    (Instr.scanUnk (dwOf 0 1 false 7)).wellFormed = false ∧
    (Instr.scanUnk (dwOf 0x04 1 false 7)).wellFormed = false := by decide

theorem test_illformed_cad :
    (Instr.cadDet (dwOf 0x01 1 false 7)).wellFormed = false ∧
    (Instr.cadStep (dwOf 0x04 2 false 12)).wellFormed = false ∧
    (Instr.cadWrap (dwOf 0x04 2 false 11)).wellFormed = false ∧
    (Instr.cadIdle (dwOf 0x40 2 false 7)).wellFormed = false ∧
    (Instr.cadUnk (dwOf 0 2 false 7)).wellFormed = false := by decide

theorem test_illformed_rx :
    (Instr.rxCrcerr (dwOf 0x20 3 false 7)).wellFormed = false ∧
    (Instr.rxReadfail (dwOf 0x80 3 false 7)).wellFormed = false ∧
    (Instr.rxOk (dwOf 0x40 1 false 7)).wellFormed = false ∧
    (Instr.rxTimeout (dwOf 0xC0 3 false 7)).wellFormed = false ∧
    (Instr.rxHdr (dwOf 0x30 3 false 7)).wellFormed = false ∧
    (Instr.rxIdle (dwOf 0x10 3 false 7)).wellFormed = false ∧
    (Instr.rxUnk (dwOf 0x10 3 false 7)).wellFormed = false ∧
    (Instr.rxUnk (dwOf 0 3 false 7)).wellFormed = false := by decide

theorem test_illformed_tx :
    (Instr.tx (dwOf 0 5 false 7)).wellFormed = false ∧
    (Instr.txdoneOk (dwOf 0x04 5 false 7)).wellFormed = false ∧
    (Instr.txdoneWait (dwOf 0x08 5 false 7)).wellFormed = false ∧
    (Instr.txdoneUnk (dwOf 0x48 5 false 7)).wellFormed = false ∧
    (Instr.txdoneUnk (dwOf 0 5 false 7)).wellFormed = false ∧
    (Instr.badState (dwOf 0 5 false 7)).wellFormed = false := by decide

theorem test_illformed_host :
    (Instr.hRead 0x02 0).wellFormed = false ∧ (Instr.hRead 0x0A 0).wellFormed = false ∧
    (Instr.hOutWrite 0x17 0).wellFormed = false ∧ (Instr.hOutWrite 0x1E 0).wellFormed = false := by decide

/-! ### Words written out from the spec's encodings -/

/-- V-H1, V-C4 (30_encoding.md R80, R83): the HOP group, in Cad and in Scan. -/
theorem test_decode_hop :
    decodeDw 0x93A00 = .ok (.hopGroup ⟨0x00, 2, true, true, true, 9⟩) ∧
    decodeDw 0x73900 = .ok (.hopGroup ⟨0x00, 1, true, true, true, 7⟩) := by decide

/-- V-S1, V-S2, V-S5, V-C2, V-S7. -/
theorem test_decode_init_scan :
    decodeDw 0x71044 = .ok (.row (.init ⟨0x44, 0, false, true, false, 7⟩)) ∧
    decodeDw 0x71101 = .ok (.row (.scanDet ⟨0x01, 1, false, true, false, 7⟩)) ∧
    decodeDw 0x71104 = .ok (.row (.scanDone ⟨0x04, 1, false, true, false, 7⟩)) ∧
    decodeDw 0x71100 = .ok (.row (.scanIdle ⟨0x00, 1, false, true, false, 7⟩)) ∧
    decodeDw 0x71108 = .ok (.row (.scanUnk ⟨0x08, 1, false, true, false, 7⟩)) := by decide

/-- V-K1, V-K2, V-K4, V-K9, V-K10. -/
theorem test_decode_cad :
    decodeDw 0x91205 = .ok (.row (.cadDet ⟨0x05, 2, false, true, false, 9⟩)) ∧
    decodeDw 0x71204 = .ok (.row (.cadStep ⟨0x04, 2, false, true, false, 7⟩)) ∧
    decodeDw 0xC1204 = .ok (.row (.cadWrap ⟨0x04, 2, false, true, false, 12⟩)) ∧
    decodeDw 0x81200 = .ok (.row (.cadIdle ⟨0x00, 2, false, true, false, 8⟩)) ∧
    decodeDw 0xA1240 = .ok (.row (.cadUnk ⟨0x40, 2, false, true, false, 10⟩)) := by decide

/-- V-R1, V-R8, V-R10, V-C3, V-R11. -/
theorem test_decode_rx :
    decodeDw 0x71B60 = .ok (.rxDoneGroup ⟨0x60, 3, true, true, false, 7⟩) ∧
    decodeDw 0x90B80 = .ok (.row (.rxTimeout ⟨0x80, 3, true, false, false, 9⟩)) ∧
    decodeDw 0x70B10 = .ok (.row (.rxHdr ⟨0x10, 3, true, false, false, 7⟩)) ∧
    decodeDw 0x70B00 = .ok (.row (.rxIdle ⟨0x00, 3, true, false, false, 7⟩)) ∧
    decodeDw 0x70330 = .ok (.row (.rxUnk ⟨0x30, 3, false, false, false, 7⟩)) := by decide

/-- V-T1, V-T4, V-T6, V-T10, V-T11. -/
theorem test_decode_tx :
    decodeDw 0x71400 = .ok (.row (.tx ⟨0x00, 4, false, true, false, 7⟩)) ∧
    decodeDw 0x90508 = .ok (.row (.txdoneOk ⟨0x08, 5, false, false, false, 9⟩)) ∧
    decodeDw 0x70500 = .ok (.row (.txdoneWait ⟨0x00, 5, false, false, false, 7⟩)) ∧
    decodeDw 0x71D40 = .ok (.row (.txdoneUnk ⟨0x40, 5, true, true, false, 7⟩)) ∧
    decodeDw 0x70600 = .ok (.row (.badState ⟨0x00, 6, false, false, false, 7⟩)) := by decide

/-- V-X1, V-X3, V-X8, V-X17, V-X5, and the words of V-X11 to V-X14 that name no transaction; DW bits [15:14]
(30_encoding.md R84). -/
theorem test_decode_host :
    decodeHost 0x0100000000 = .ok (.hRead 0x01 0) ∧
    decodeHost 0x8000000003 = .ok (.hCfgWrite 3) ∧
    decodeHost 0x9800000101 = .ok (.hOutWrite 0x18 257) ∧
    decodeHost 0xA0000003AB = .ok (.hOutPayloadWrite 0x3AB) ∧
    decodeHost 0x8200000001 = .ok .hTxRequest ∧
    decodeHost 0x8200000002 = .error .reservedCmd ∧ decodeHost 0x0200000000 = .error .writeOnly ∧
    decodeHost 0x8100000000 = .error .readOnly ∧ decodeHost 0x0A00000000 = .error .unmappedIndex ∧
    decodeDw 0x04000 = .error .reservedDw := by decide

/-- The host's numbering of a table row's bits: no bits for RESET, a dispatch word, a host word. -/
theorem test_decode_table_word :
    decodeTableWord 0 0 = some .reset ∧
    decodeTableWord 24 0x71204 = some (.cadStep ⟨0x04, 2, false, true, false, 7⟩) ∧
    decodeTableWord 40 0x8200000001 = some .hTxRequest := by decide

/-- The same word placed after reset is selected by the next step, whatever the open parameters are. -/
theorem test_fetch_word :
    (State.reset.withFetchWord 24 0x71204).popped.invocationInstr =
      .ok (.cadStep ⟨0x04, 2, false, true, false, 7⟩) := rfl

/-- The words of the two groups, placed after reset, run the row `decodeTableWord` answers. -/
theorem test_fetch_word_groups :
    (State.reset.withFetchWord 24 0x02000).popped.invocationInstr = .ok (.hopIdle ⟨0, 1, true, false, true, 0⟩) ∧
    (State.reset.withFetchWord 24 0x00340).popped.invocationInstr =
      .ok (.rxOk ⟨0x40, 3, false, false, false, 0⟩) ∧
    decodeTableWord 24 0x00340 = some (.rxOk ⟨0x40, 3, false, false, false, 0⟩) := ⟨rfl, rfl, rfl⟩

/-! ### One step each -/

/-- A launch state under the example parameters: the block registers that select an operation, the
transceiver's flags and mask, the time, and an INVOKE to come. Every other register is 0. -/
def launch (st : BitVec 3) (hop cad : Bool) (sf : BitVec 4) (flags mask : Byte) (t : Word) : State :=
  let s := State.resetWith exampleParams
  { s with
    block := { s.block with state := st, hopEn := hop, cadEn := cad, sf := sf },
    radio := { s.radio with flags := flags, mask := mask }, now := t, script := [.invoke] }

/-- A launch state with no stimulus left. -/
def quiet (s : State) : State := { s with script := [] }

/-- A launch state with an RSSI answer pending. -/
def withRssi (s : State) (v : Byte) : State := { s with radio := { s.radio with rssi := [v] } }

/-- A launch state with the receive-done's answers pending. -/
def withPacket (s : State) (crc : Byte) (n : Half) (bytes : List Byte) (snr rssi sfc : Byte) : State :=
  { s with
    radio := { s.radio with
      crcOn := [crc], packets := [⟨n, bytes⟩], pktSnr := [snr], pktRssi := [rssi], sfCfg := [sfc] },
    parser := [0] }

/-- The next state's view through `f`. -/
def view {α : Type} (f : State → α) : Host.Outcome State Fault Refusal → Option α
  | .next s => some (f s)
  | .fault _ => none
  | .refused _ => none

/-- The actions after the prologue's two reads. -/
def acts (s : State) : List Action := s.actions.drop 2

/-- V-H1: one microsecond past DoneWait(9). -/
theorem test_hop_done_to : view (fun t => (acts t, t.block.state, t.block.channel, t.block.sf, t.block.doneTime))
    (step ((launch stCad true true 9 0 0 9001).modBlock fun b =>
      { b with doneTime := 1000, eventTime := 9000 })) =
    some ([.armScan 1 7], stScan, 1, 7, 9001) := by decide

/-- V-H3: the event budget, and the channel wraps. -/
theorem test_hop_event_to : view (fun t => (acts t, t.block.state, t.block.channel, t.block.eventTime))
    (step ((launch stScan true false 7 0 0 20001).modBlock fun b =>
      { b with doneTime := 19000, channel := 2 })) =
    some ([.armScan 0 7], stScan, 0, 20001) := by decide

/-- V-H2: at DoneWait(9) exactly. -/
theorem test_hop_idle_at_equality : view (fun t => (acts t, t.block.state, t.block.channel, t.block.doneTime))
    (step ((launch stCad true true 9 0 0 9000).modBlock fun b =>
      { b with doneTime := 1000, eventTime := 9000 })) =
    some ([], stCad, 0, 1000) := by decide

/-- V-H5, W8: both timers ahead of the time are clamped, and written back. -/
theorem test_hop_idle_clamps : view (fun t => (acts t, t.block.eventTime, t.block.doneTime))
    (step ((launch stScan true false 7 0 0 10000).modBlock fun b =>
      { b with doneTime := 50000, eventTime := 50000 })) =
    some ([], 10000, 10000) := by decide

/-- V-H6: an unrecognized SF is logged and budgeted at one base. -/
theorem test_hop_unknown_sf : view (fun t => (acts t, t.block.sf))
    (step ((launch stScan true false 5 0 0 2001).modBlock fun b => { b with eventTime := 2000 })) =
    some ([.log .sfUnknown, .armScan 1 7], 7) := by decide

/-- V-S1. -/
theorem test_init : view (fun t => (acts t, t.block.state, t.block.softEvent, t.radio.flags))
    (step (launch stInit false true 7 0x44 0 0)) =
    some ([.clrFlags 0xFF, .clrMask], stScan, false, 0) := by decide

/-- V-C1: a masked cause is logged, and detection wins. -/
theorem test_scan_det : view (fun t => (acts t, t.block.state, t.block.detRssi, t.block.detTime, t.radio.flags))
    (step (withRssi (launch stScan false true 7 0x05 0x04 1000) 50)) =
    some ([.log .masked, .setDio 0x01, .rd (.status .rssi) 50, .clrFlags 0xFF, .startRxSingle],
      stRx, 50, 1000, 0) := by decide

/-- V-S5: at the threshold, Scan; W4: above it, Cad. -/
theorem test_scan_done :
    view (fun t => (acts t, t.block.state, t.block.doneTime))
      (step (withRssi (launch stScan false true 7 0x04 0 7000) 35)) =
      some ([.opmodeCad, .rd (.status .rssi) 35, .clrMask, .clrFlags 0xFF], stScan, 7000) ∧
    view (fun t => t.block.state) (step (withRssi (launch stScan false true 7 0x04 0 7000) 40)) =
      some stCad := by decide

/-- V-H11, V-H12: the hop threshold. -/
theorem test_scan_done_hop :
    view (fun t => t.block.state) (step (withRssi (launch stScan true true 7 0x04 0 1000) 31)) = some stCad ∧
    view (fun t => t.block.state) (step (withRssi (launch stScan true true 7 0x04 0 1000) 30)) = some stScan := by
  decide

/-- V-C2. -/
theorem test_scan_idle : view (fun t => (acts t, t.block.state, t.radio.flags))
    (step (launch stScan false true 7 0x40 0xFF 0)) = some ([.log .masked], stScan, 0x40) := by decide

/-- V-S7. -/
theorem test_scan_unk : view (fun t => (acts t, t.block.state, t.radio.flags))
    (step (launch stScan false true 7 0x08 0 0)) =
    some ([.log .scanUnknown, .clrMask, .clrFlags 0xFF], stScan, 0) := by decide

/-- V-K1. -/
theorem test_cad_det : view (fun t => (acts t, t.block.state, t.block.sf))
    (step (withRssi (launch stCad false true 9 0x05 0 0) 70)) =
    some ([.setDio 0x01, .rd (.status .rssi) 70, .clrFlags 0xFF, .startRxSingle], stRx, 9) := by decide

/-- V-K2: the flag stays. -/
theorem test_cad_step : view (fun t => (acts t, t.block.state, t.block.sf, t.block.doneTime, t.radio.flags))
    (step (launch stCad false true 7 0x04 0 5000)) =
    some ([.setRate 8 0x00, .clrMask, .opmodeCad], stCad, 8, 5000, 0x04) := by decide

/-- V-K4. -/
theorem test_cad_wrap : view (fun t => (acts t, t.block.state, t.block.sf, t.block.softEvent, t.block.doneTime))
    (step (launch stCad false true 12 0x04 0 4000)) =
    some ([.armScan 0 7, .clrMask, .clrFlags 0xFF], stScan, 7, true, 4000) := by decide

/-- V-K9. -/
theorem test_cad_idle : view (fun t => (acts t, t.block.state, t.block.softEvent))
    (step (launch stCad false true 8 0 0 0)) = some ([.log .cadIdle], stCad, true) := by decide

/-- V-K10. -/
theorem test_cad_unk : view (fun t => (acts t, t.block.state, t.block.sf, t.block.softEvent, t.block.doneTime))
    (step (launch stCad false true 10 0x40 0 5)) =
    some ([.log .cadUnknown, .armScan 0 7, .clrMask, .clrFlags 0xFF], stScan, 7, true, 0) := by decide

/-- V-R1. -/
theorem test_rx_crcerr : view (fun t => (acts t, t.block.state, t.block.sf))
    (step (withPacket (launch stRx true true 7 0x60 0 0) 0x01 4 [] 0 0 0)) =
    some ([.rd (.status .crcOn) 0x01, .log .rxCrc, .clrMask, .clrFlags 0xF0, .armScan 0 7], stScan, 7) := by
  decide

/-- V-R4. -/
theorem test_rx_readfail : view (fun t => (acts t, t.block.state, t.block.softEvent, t.block.rxTime, t.radio.flags))
    (step (withPacket (launch stRx false true 9 0x40 0 3000) 0x00 0 [] 0 0 0)) =
    some ([.rd (.status .crcOn) 0x00, .readPacket 0 [], .log .rxReadfail, .clrMask],
      stScan, true, 3000, 0x40) := by decide

/-- V-R3, W1, W3: a set CRC error bit with CRC off is ignored; the delivered record. -/
theorem test_rx_ok : view (fun t => acts t)
    (step (withPacket (launch stRx false true 7 0x60 0 6000) 0xFE 4 [1, 2, 3, 4] 0x83 0x00 0x07)) =
    some [.rd (.status .crcOn) 0xFE, .readPacket 4 [1, 2, 3, 4], .rd (.status .pktSnr) 0x83,
      .rd (.status .pktRssi) 0x00, .rd (.status .sfCfg) 0x07,
      .deliver ⟨[1, 2, 3, 4], 4, -32, -157, 7⟩ 0, .log .parserResult, .armScan 0 7, .clrMask,
      .clrFlags 0xFF] := by decide

/-- V-R7: single-channel mode, receive-done wins over timeout; the metadata registers. -/
theorem test_rx_ok_registers :
    view (fun t => (t.block.state, t.block.inLen, t.block.inSnr, t.block.inRssi, t.block.inSf, t.block.eventTime,
        memRead t.block.inBuf 0, memRead t.block.inBuf 1))
      (step ((withPacket (launch stRx false false 7 0xC0 0 77) 0x00 1 [0x5A] 0xFF 0x00 0x0C).modBlock
        fun b => { b with xcvrModel := true, inBuf := [(1, 9)] })) =
    some (stRx, 1, -1, -139, 12, 77, 0x5A, 0) := by decide

/-- V-R6. -/
theorem test_rx_overlen :
    step (withPacket (launch stRx false false 7 0x40 0 0) 0x00 257 [] 0 0 0) = .fault .readOverlen := rfl

/-- W6, V-R8, and V-R9 in single-channel mode. -/
theorem test_rx_timeout :
    view (fun t => (acts t, t.block.state, t.block.sf, t.block.eventTime, t.block.doneTime))
      (step (launch stRx true false 9 0x80 0 42000)) =
      some ([.clrMask, .clrFlags 0xFF, .log .rxTimeout, .armScan 0 7], stScan, 7, 42000, 42000) ∧
    view (fun t => (acts t, t.block.state)) (step (launch stRx false false 7 0x80 0 42000)) =
      some ([.clrMask, .clrFlags 0xFF, .startRxCont], stRx) := by decide

/-- V-R10: no YIELD, because something is active; V-C3: YIELD. -/
theorem test_rx_hdr_idle :
    view (fun t => (acts t, t.radio.flags)) (step (launch stRx true false 7 0x10 0 0)) = some ([], 0x10) ∧
    view (fun t => (acts t, t.block.state)) (step (launch stRx true false 7 0 0 0)) = some ([.yield], stRx) := by
  decide

/-- V-R11. -/
theorem test_rx_unk : view (fun t => (acts t, t.block.state, t.radio.flags))
    (step (launch stRx false false 7 0x30 0 0)) = some ([.log .rxUnknown], stRx, 0x30) := by decide

/-- P3 step 5: TX with nothing active, its record. -/
theorem test_tx : view (fun t => (acts t, t.block.state, t.block.sendTime, t.block.softEvent))
    (step ((launch stTx false false 7 0 0 200).modBlock fun b =>
      { b with
        outLen := 2, outTmst := 5000000, outSf := 9, outPower := 14, outFreq := 868100000, outCrc := true,
        outBuf := [(0, 0xCA), (1, 0xFE)] })) =
    some ([.log .txForced, .clrMask, .clrFlags 0xFF,
      .startTx ⟨[0xCA, 0xFE], 2, 5000000, 9, 14, 868100000, true, false⟩], stTxDone, 200, true) := by decide

/-- V-T2: no forced log with a cause pending. -/
theorem test_tx_pending : view (fun t => (acts t).length) (step (launch stTx false true 7 0x40 0 0)) = some 3 := by
  decide

/-- V-T4, V-T5. -/
theorem test_txdone_ok :
    view (fun t => (acts t, t.block.state, t.block.sf)) (step (launch stTxDone false false 9 0x08 0 0)) =
      some ([.clrMask, .clrFlags 0xFF, .startRxCont], stRx, 9) ∧
    view (fun t => (acts t, t.block.state, t.block.sf)) (step (launch stTxDone false true 9 0x48 0 0)) =
      some ([.clrMask, .clrFlags 0xFF, .armScan 0 7], stScan, 7) := by decide

/-- V-T6, V-T7: at the deadline, and one microsecond past it. -/
theorem test_txdone_wait :
    view (fun t => acts t) (step ((launch stTxDone false false 7 0 0 8000000).modBlock fun b =>
      { b with sendTime := 1000000 })) = some [] ∧
    view (fun t => (acts t, t.block.state, t.block.sendTime))
      (step ((launch stTxDone false false 7 0 0 8000001).modBlock fun b => { b with sendTime := 1000000 })) =
      some ([.log .txDeadline, .startRxCont], stTxDone, 1000000) := by decide

/-- V-T10. -/
theorem test_txdone_unk : view (fun t => (acts t, t.block.state))
    (step (launch stTxDone true true 7 0x40 0 0)) =
    some ([.log .txdoneUnknown, .clrMask, .clrFlags 0xFF], stScan) := by decide

/-- V-T12. -/
theorem test_bad_state : view (fun t => (acts t, t.block.state, t.block.eventTime))
    (step ((launch 7 true false 7 0 0 5000).modBlock fun b => { b with channel := 2 })) =
    some ([.yield, .log .badState, .armScan 2 7, .clrMask, .clrFlags 0xFF], stScan, 5000) := by decide

/-- A launch state whose next stimulus is a host word. -/
def hostLaunch (st : BitVec 3) (w : BitVec 40) : State := { launch st false false 7 0 0 0 with script := [.host w] }

/-- V-X1, V-X15, V-X18. -/
theorem test_h_read :
    view (fun t => t.reply) (step (hostLaunch stInit 0x0100000000)) = some (.value 0x70) ∧
    view (fun t => t.reply) (step (hostLaunch stInit 0x0100000001)) = some .refused ∧
    view (fun t => t.reply) (step (hostLaunch stRx 0x210000C800)) = some (.value 0) := by decide

/-- V-X16: signed registers read zero-extended. -/
theorem test_h_read_signed :
    registerWord { Block.reset exampleParams with inSnr := -32 } 0x11 = 0x000000E0 ∧
    registerWord { Block.reset exampleParams with inRssi := -157 } 0x12 = 0x0000FF63 := by decide

/-- V-X3, V-X4. -/
theorem test_h_cfg_write :
    view (fun t => (t.block.hopEn, t.block.cadEn, t.block.xcvrModel)) (step (hostLaunch stRx 0x8000000003)) =
      some (true, true, false) ∧
    view (fun t => (t.reply, t.block.hopEn)) (step (hostLaunch stRx 0x8000000008)) =
      some (.refused, false) := by decide

/-- V-X7, V-X8, V-X9, V-X10. -/
theorem test_h_out_write :
    view (fun t => (t.reply, t.block.outLen)) (step (hostLaunch stTx 0x9800000005)) = some (.refused, 0) ∧
    view (fun t => (t.reply, t.block.outLen)) (step (hostLaunch stScan 0x9800000101)) = some (.refused, 0) ∧
    view (fun t => (t.reply, t.block.outLen)) (step (hostLaunch stScan 0x9800000100)) = some (.accepted, 256) ∧
    view (fun t => t.reply) (step (hostLaunch stScan 0x9A00000010)) = some .refused := by decide

/-- V-X17. -/
theorem test_h_out_payload_write :
    view (fun t => (t.reply, t.block.outBuf)) (step (hostLaunch stScan 0xA0000003AB)) =
      some (.accepted, [(3, 0xAB)]) := by decide

/-- V-X5, V-X6. -/
theorem test_h_tx_request :
    view (fun t => (t.reply, t.block.state, registerWord t.block 0x01)) (step (hostLaunch stRx 0x8200000001)) =
      some (.accepted, stTx, 0x7C) ∧
    view (fun t => t.reply) (step (hostLaunch stTx 0x8200000001)) = some .refused := by decide

/-- P1 step 1: RESET, from Rx at SF 9; the transceiver is not touched (70_reset_and_hazards.md R262). -/
theorem test_reset :
    view (fun t => (registerWord t.block 0x01, t.block.channel, t.block.inLen, t.radio.flags))
      (step { launch stRx false false 9 0x10 0 0 with script := [.reset] }) = some (0x70, 0, 0, 0x10) := by decide

/-- 20_memory.md R58: a flag raised after the prologue's read and before CLR_FLAGS is lost. -/
theorem test_lost_flag : view (fun t => (t.radio.flags, t.block.state))
    (step { launch stScan false true 7 0x08 0 0 with
      radio := { (launch stScan false true 7 0x08 0 0).radio with raises := [0, 0, 0x40] } }) =
    some (0, stScan) := by decide

/-- 45_host.md R215, R218: with no stimulus left, hop polling is a trigger. -/
theorem test_trigger_invokes :
    view (fun t => (acts t, t.block.state)) (step (quiet (launch stRx true false 7 0 0 0))) =
      some ([.yield], stRx) := by decide

/-- 45_host.md R215: with no stimulus left and no trigger, no invocation is guaranteed in TxDone: whether
there is one is the invoker's free choice. -/
theorem test_no_trigger_no_guarantee :
    (quiet (launch stTxDone false false 7 0 0 8000001)).nextStimulus =
      if (Config.freeByte 0)[0] then some .invoke else none := rfl

/-- 60_exceptions.md R252: the log's record goes to the sink, which takes a later record first, and drops one. -/
theorem test_log_sink :
    view (fun t => t.sink) (step (launch stCad false true 8 0 0 0)) = some ⟨[.cadIdle], []⟩ ∧
    view (fun t => t.sink) (step { launch stCad false true 8 0 0 0 with
      sink := ⟨[.masked, .cadIdle], []⟩, script := [.sink 1 true] }) = some ⟨[.masked], [.cadIdle]⟩ ∧
    view (fun t => t.sink) (step { launch stCad false true 8 0 0 0 with
      sink := ⟨[.masked, .cadIdle], []⟩, script := [.sink 0 false] }) = some ⟨[.cadIdle], []⟩ := by decide

/-- 30_encoding.md R98: index 256 of a payload gives the word `{1, 0x20, 256<<8 | b}`, which is refused, and not
the word of index 0; CFG's bits. -/
theorem test_script_words :
    hwb 256 0xAB = .host 0xA0000100AB ∧ hrb 256 = .host 0x2100010000 ∧ cfg 1 0 1 = .host 0x8000000005 ∧
    view (fun t => (t.reply, t.block.outBuf)) (step (hostLaunch stScan 0xA0000100AB)) =
      some (.refused, []) := by decide

/-- 30_encoding.md R98, program P3 step 2: the host words of a TXSEND. -/
theorem test_tx_send_words :
    txSend 5000000 9 14 868100000 1 0 [0xCA, 0xFE] =
      [.host 0x9800000002, .host 0x99004C4B40, .host 0x9A00000009, .host 0x9B0000000E, .host 0x9C33BE27A0,
        .host 0x9D00000001, .host 0xA0000000CA, .host 0xA0000001FE, .host 0x8200000001] := by decide

/-! ### A case that meets the hypotheses of each statement -/

theorem witness_DecodeOfEncodeSelectsTheOperation :
    (Instr.cadStep ⟨0x04, 2, false, true, false, 11⟩).wellFormed = true ∧
    (Instr.cadWrap ⟨0x04, 2, false, true, false, 12⟩).wellFormed = true ∧
    (Instr.hRead 0x21 0x0000FF00).wellFormed = true := by decide

/-- INVOKE; each of the three triggers alone with no stimulus left; and none of them. -/
theorem witness_StepRunsTheSelectedOperation :
    (launch stInit false false 7 0 0 0).invokesNext ∧
    (launch stInit false false 7 0 0 0).popped.invocationInstr = .ok (.init ⟨0, 0, false, false, false, 7⟩) ∧
    (launch stInit false false 7 0 0 0).script = .invoke :: [] ∧
    (quiet (launch stRx true false 7 0 0 0)).script = [] ∧
    ((0x50 : Byte) &&& ~~~0x40 ≠ 0 ∧ (0x40 : Byte) &&& ~~~0x40 = 0) ∧
    (quiet (launch stRx true false 7 0 0 0)).block.hopEn = true ∧
    (quiet (launch stRx false false 7 0 0 0)).block.hopEn = false ∧
    ((quiet (launch stRx false false 7 0 0 0)).modBlock fun b => { b with softEvent := true }).block.softEvent =
      true ∧
    (quiet (launch stRx false false 7 0 0 0)).block.softEvent = false := by decide

theorem witness_StepRunsTheHostTransaction :
    (hostLaunch stRx 0x8200000001).script = .host 0x8200000001 :: [] ∧
    decodeHost 0x8200000001 = .ok .hTxRequest ∧ decodeHost 0x8200000002 = .error .reservedCmd := by decide

theorem witness_PrologueReadsLogsAndYields : (launch stRx true false 7 0x10 0x10 0).radioStill := by decide

/-- V-H1, V-H3 and the two equalities V-H2, V-H4: each of the three rows is taken. -/
theorem witness_HopGroupTakesTheFirstExpiredBudget :
    (launch stCad true true 9 0 0 9001).invocationDw.hs = true ∧
    doneWait exampleParams 9 < 9001 - 1000 ∧ ¬ doneWait exampleParams 9 < 9000 - 1000 ∧
    eventWait exampleParams stScan < 20001 - 0 ∧ ¬ eventWait exampleParams stScan < 20000 - 0 := by decide

theorem witness_HopTimeoutsHopToTheNextChannel :
    Instr.hopDoneTo (dwOf 0 1 true 7) = .hopDoneTo (dwOf 0 1 true 7) ∨
      Instr.hopDoneTo (dwOf 0 1 true 7) = .hopEventTo (dwOf 0 1 true 7) := by decide

theorem witness_HopIdleOnlyClampsTheTimers : (launch stScan true false 7 0 0 10000).radioStill := by decide

/-- A hop; and SCAN_IDLE, which does not hop. -/
theorem witness_NoHopBeforeABudgetRunsOut :
    (launch stScan true false 7 0 0 2001).invokesNext ∧
    (launch stScan true false 7 0 0 2001).popped.invocationInstr =
      .ok (.hopDoneTo ⟨0, 1, true, false, true, 7⟩) ∧
    (launch stScan false false 7 0 0 2001).popped.invocationInstr =
      .ok (.scanIdle ⟨0, 1, false, false, false, 7⟩) ∧
    (view (fun t => t.block.state) (step (launch stScan false false 7 0 0 2001))).isSome = true := by decide

/-- The boundaries: SF 7 and 11 double, 6 and 13 take the base. -/
theorem witness_BudgetsOfStateAndSpreadingFactor :
    (7 ≤ (7 : BitVec 4).toNat ∧ (7 : BitVec 4).toNat < 12) ∧
    (7 ≤ (11 : BitVec 4).toNat ∧ (11 : BitVec 4).toNat < 12) ∧
    (6 : BitVec 4).toNat < 7 ∧ 12 < (13 : BitVec 4).toNat := by decide

/-- A timer at the time, and one microsecond ahead of it. -/
theorem witness_ElapsedIsNeverNegativeNorHuge :
    (5 : Word).toNat ≤ (5 : Word).toNat ∧ (5 : Word).toNat < (6 : Word).toNat := by decide

theorem witness_InitClearsAndAdvancesToScan :
    (dwOf 0xFF 0 false 15).word &&& 0x02700 = 0x00000 ∧ (launch stInit false false 7 0xFF 0 0).radioStill := by
  decide

theorem witness_DetectionStartsASingleReceive :
    (dwOf 0x05 1 false 7).word &&& 0x02701 = 0x00101 ∧ (dwOf 0x05 2 false 7).word &&& 0x02701 = 0x00201 ∧
    (withRssi (launch stScan false true 7 0x05 0 0) 50).radio.rssi = 50 :: [] ∧
    (launch stScan false true 7 0x05 0 0).params.plainRadio ∧
    (launch stScan false true 7 0x05 0 0).radioStill := by decide

theorem witness_ScanDoneComparesRssiWithTheThreshold :
    (dwOf 0x44 1 false 7).word &&& 0x02705 = 0x00104 ∧
    (withRssi (launch stScan false true 7 0x04 0 0) 36).radio.rssi = 36 :: [] := by decide

theorem witness_ScanIdleAndUnknownStayInScan :
    (dwOf 0 1 false 7).word &&& 0x027FF = 0x00100 ∧ (dwOf 0x02 1 false 7).word &&& 0x02705 = 0x00100 ∧
    (dwOf 0x02 1 false 7).active ≠ 0 := by decide

theorem witness_CadStepRaisesTheSpreadingFactor :
    (dwOf 0x04 2 false 11).word &&& 0x02705 = 0x00204 ∧ (dwOf 0x04 2 false 11).sf.toNat < 12 ∧
    (launch stCad false true 11 0x04 0 0).params.plainRadio ∧
    (launch stCad false true 11 0x04 0 0).radioStill := by decide

theorem witness_CadWrapRescansAtSf7 :
    (dwOf 0x04 2 false 12).word &&& 0x02705 = 0x00204 ∧ 12 ≤ (dwOf 0x04 2 false 12).sf.toNat := by decide

theorem witness_CadIdleAndUnknownSetTheMarker :
    (dwOf 0 2 false 7).word &&& 0x027FF = 0x00200 ∧ (dwOf 0x40 2 false 7).word &&& 0x02705 = 0x00200 ∧
    (dwOf 0x40 2 false 7).active ≠ 0 ∧ (launch stCad false true 8 0 0 0).radioStill := by decide

theorem witness_CadVisitOnlyStepsTheSpreadingFactorUp :
    ∃ t, exec (.cadStep (dwOf 0x04 2 false 7)) (launch stCad false true 7 0x04 0 0) = .next t ∧
      (launch stCad false true 7 0x04 0 0).block.state = stCad ∧ t.block.state = stCad ∧
      t.block.sf ≠ (launch stCad false true 7 0x04 0 0).block.sf := ⟨_, rfl, by decide⟩

/-- A receive-done state for each row: a CRC error; no crc-error bit, or CRC checking off, with the lengths 0,
1, the capacity, and one above it. -/
theorem witness_ReceiveDoneTakesTheFirstRowThatHolds :
    let s (flags crc : Byte) (n : Half) := withPacket (launch stRx false false 7 flags 0 0) crc n [] 0 0 0
    (s 0x60 1 0).block.state = stRx ∧ (s 0x60 1 0).invocationActive[6] = true ∧
    (s 0x60 1 0).invocationActive[5] = true ∧ (s 0x60 1 0).radio.crcOn = 1 :: [] ∧
    ((s 0x60 1 0).prologue.statusValue .crcOn).getLsbD 0 = true ∧
    ((s 0x60 0 0).prologue.statusValue .crcOn).getLsbD 0 = false ∧ (s 0x40 1 0).invocationActive[5] = false ∧
    (s 0x40 1 0).radio.packets = ⟨0, []⟩ :: [] ∧ (s 0x40 1 0).prologue.rxLength ≤ 0 ∧
    1 ≤ (s 0x40 1 1).prologue.rxLength ∧ (s 0x40 1 256).prologue.rxLength ≤ exampleParams.inCap ∧
    (exampleParams.inCap : Int) < (s 0x40 1 257).prologue.rxLength := by decide

theorem witness_CrcErrorResumesWithoutReading :
    (withPacket (launch stRx true true 7 0x6A 0x04 0) 1 0 [] 0 0 0).radio.crcOn = 1 :: [] ∧
    (launch stRx true true 7 0x6A 0x04 0).params.plainRadio ∧
    (launch stRx true true 7 0x6A 0x04 0).radioStill := by decide

/-- A failed read, and the longest read inside the contract. -/
theorem witness_FailedReadGoesToScanWithTheFlagsKept :
    Memory.wfBelow exampleParams.inCap (launch stRx false false 7 0x40 0 0).block.inBuf ∧
    (withPacket (launch stRx false false 7 0x40 0 0) 0 (-1) [] 0 0 0).rxLength = -1 ∧
    (withPacket (launch stRx false false 7 0x40 0 0) 0 256 [] 0 0 0).rxLength ≤ exampleParams.inCap ∧
    (launch stRx false false 7 0x40 0 0).params.plainRadio ∧
    (launch stRx false false 7 0x40 0 0).radioStill := by decide

/-- A two-byte packet with every answer pending; a byte of it, a cleared byte, a byte above the capacity. -/
theorem witness_GoodPacketIsStagedAndDelivered :
    let s := withPacket (launch stRx false true 7 0x40 0 0) 0 2 [7, 8] 0x28 0x50 9
    Memory.wfBelow s.params.inCap s.block.inBuf ∧ s.radio.crcOn = 0 :: [] ∧
    s.radio.packets = ⟨2, [7, 8]⟩ :: [] ∧ s.radio.pktSnr = 0x28 :: [] ∧ s.radio.pktRssi = 0x50 :: [] ∧
    s.radio.sfCfg = 9 :: [] ∧ s.parser = 0 :: [] ∧ 0 < (2 : Half).toInt ∧ (2 : Half).toInt ≤ s.params.inCap ∧
    s.params.inCap ≤ 256 ∧ ([7, 8] : List Byte).length = (2 : Half).toNat := by decide

/-- The shortest and the longest packet, their bytes drawn; an answer pending for each of the other reads. -/
theorem witness_RxOkCompletesOnDrawnAnswers :
    Memory.wfBelow exampleParams.inCap (launch stRx false true 7 0x40 0 0).block.inBuf ∧
    (withPacket (launch stRx false true 7 0x40 0 0) 0 1 [] 0x28 0x50 9).radio.pktSnr = 0x28 :: [] ∧
    (withPacket (launch stRx false true 7 0x40 0 0) 0 1 [] 0x28 0x50 9).radio.pktRssi = 0x50 :: [] ∧
    (withPacket (launch stRx false true 7 0x40 0 0) 0 1 [] 0x28 0x50 9).radio.sfCfg = 9 :: [] ∧
    (withPacket (launch stRx false true 7 0x40 0 0) 0 1 [] 0x28 0x50 9).parser = 0 :: [] ∧
    0 < (withPacket (launch stRx false true 7 0x40 0 0) 0 1 [] 0 0 0).rxLength ∧
    (withPacket (launch stRx false true 7 0x40 0 0) 0 256 [] 0 0 0).rxLength ≤ exampleParams.inCap ∧
    exampleParams.inCap ≤ 256 := by decide

/-- CRC checking off with the crc-error bit active, and on without it. -/
theorem witness_OverlongReadFaults :
    let s := withPacket (launch stRx false false 7 0x60 0 0) 0 257 [] 0 0 0
    let u := withPacket (launch stRx false false 7 0x40 0 0) 1 257 [] 0 0 0
    s.invokesNext ∧ s.block.state = stRx ∧ s.popped.invocationActive[6] = true ∧ s.radio.crcOn = 0 :: [] ∧
    (0 : Byte).getLsbD 0 = false ∧ s.radio.packets = ⟨257, []⟩ :: [] ∧
    (s.params.inCap : Int) < (257 : Half).toInt ∧
    u.popped.invocationActive[6] = true ∧ u.popped.invocationActive[5] = false := by decide

theorem witness_RxTimeoutRescansOrRearms :
    (dwOf 0x90 3 false 7).word &&& 0x027C0 = 0x00380 ∧ (launch stRx true false 7 0x90 0 0).params.plainRadio ∧
    (launch stRx true false 7 0x90 0 0).radioStill := by decide

theorem witness_RxWaitsQuietly :
    (dwOf 0x10 3 false 7).word &&& 0x027FF = 0x00310 ∧ (dwOf 0 3 false 7).word &&& 0x027FF = 0x00300 ∧
    (dwOf 0x30 3 false 7).word &&& 0x027C0 = 0x00300 ∧ (dwOf 0x30 3 false 7).active ≠ 0 ∧
    (dwOf 0x30 3 false 7).active ≠ 0x10 ∧ (launch stRx false false 7 0x30 0 0).radioStill := by decide

theorem witness_PacketRssiIsExact : exampleParams.legal := by decide

theorem witness_TxSendsTheOutboundSlotOnce :
    (dwOf 0x40 4 false 7).word &&& 0x02700 = 0x00400 ∧ (launch stTx false false 7 0x40 0 0).params.plainRadio ∧
    (launch stTx false false 7 0x40 0 0).radioStill := by decide

theorem witness_TransmitDoneResumes :
    (dwOf 0x48 5 false 7).word &&& 0x02708 = 0x00508 ∧ (launch stTxDone false true 7 0x48 0 0).params.plainRadio ∧
    (launch stTxDone false true 7 0x48 0 0).radioStill := by decide

theorem witness_TxdoneWaitRearmsAfterTheDeadline : (dwOf 0 5 false 7).word &&& 0x027FF = 0x00500 := by decide

/-- Past the deadline by one microsecond, and again at the same time. -/
theorem witness_DeadlineRearmRepeats :
    let s := launch stTxDone false false 7 0 0 7000001
    ∃ t v, exec (.txdoneWait (dwOf 0 5 false 7)) s = .next t ∧
      s.params.txDeadline < s.now.toNat - s.block.sendTime.toNat ∧ t.params = t.params ∧
      s.now.toNat ≤ t.now.toNat ∧ exec (.txdoneWait (dwOf 0 5 false 7)) t = .next v :=
  ⟨_, _, rfl, by decide, rfl, by decide, rfl⟩

theorem witness_UnexpectedCauseInTxDoneGoesToScan :
    (dwOf 0x40 5 false 7).word &&& 0x02708 = 0x00500 ∧ (dwOf 0x40 5 false 7).active ≠ 0 := by decide

theorem witness_BadStateRecovers :
    (dwOf 0 6 false 7).word &&& 0x02600 = 0x00600 ∧ (dwOf 0xFF 7 false 7).word &&& 0x02600 = 0x00600 := by decide

/-- Index 255 of a full space, index 2 of a space of two bytes, a readable and an unreadable register. -/
theorem witness_HostReadReturnsTheRegister :
    ((0x0000FF00 : Word).extractLsb' 8 8).toNat < exampleParams.outCap ∧
    ¬ ((0x00000200 : Word).extractLsb' 8 8).toNat < ({ exampleParams with outCap := 2 } : Params).outCap ∧
    (0x1D : BitVec 7) ≠ 0x20 ∧ (0x1D : BitVec 7) ≠ 0x21 ∧ (0x02 : BitVec 7) ≠ 0x20 ∧ (0x02 : BitVec 7) ≠ 0x21 := by
  decide

theorem witness_ConfigurationWriteSetsTheThreeBits :
    (7 : Word).toNat < 8 ∧ 8 ≤ (8 : Word).toNat ∧
    ∃ t u : State, exec (.hCfgWrite 3) (launch stRx false false 7 0 0 0) = .next t ∧ u.block = t.block :=
  ⟨by decide, by decide, _, _, rfl, rfl⟩

/-- Each register at its largest accepted value and at its smallest refused one; state Tx and another. -/
theorem witness_OutboundWriteSetsOneRegister :
    0x18 ≤ (0x18 : BitVec 7).toNat ∧ (0x1D : BitVec 7).toNat ≤ 0x1D ∧
    (256 : Word).toNat ≤ exampleParams.outCap ∧ exampleParams.outCap < (257 : Word).toNat ∧
    (15 : Word).toNat < 16 ∧ 16 ≤ (16 : Word).toNat ∧ (255 : Word).toNat < 256 ∧ 256 ≤ (256 : Word).toNat ∧
    (3 : Word).toNat < 4 ∧ 4 ≤ (4 : Word).toNat ∧
    (launch stScan false false 7 0 0 0).block.state ≠ stTx ∧ (launch stTx false false 7 0 0 0).block.state = stTx := by
  decide

theorem witness_PayloadWriteSetsOneByte :
    Memory.wf (launch stScan false false 7 0 0 0).block.outBuf ∧
    (launch stScan false false 7 0 0 0).block.state ≠ stTx ∧ (0x0000FFAB : Word).extractLsb' 16 16 = 0 ∧
    ((0x0000FFAB : Word).extractLsb' 8 8).toNat < exampleParams.outCap ∧
    ({ exampleParams with outCap := 2 } : Params).outCap ≤ ((0x000002AB : Word).extractLsb' 8 8).toNat ∧
    (0x000103AB : Word).extractLsb' 16 16 ≠ 0 := by decide

theorem witness_TxRequestIsFollowedByTx :
    ∃ t, exec .hTxRequest (launch stRx false false 7 0x40 0 0) = .next t ∧
      (launch stRx false false 7 0x40 0 0).block.state ≠ stTx := ⟨_, rfl, by decide⟩

theorem witness_RefusedTransactionsHaveNoEffect :
    ∃ t, Instr.dw? .hTxRequest = none ∧ (launch stTx false false 7 0 0 0).reply = .none ∧
      exec .hTxRequest (launch stTx false false 7 0 0 0) = .next t ∧ t.reply = .refused ∧
      (launch stTx false false 7 0 0 0).block.state = stTx := ⟨_, rfl, rfl, rfl, rfl, rfl⟩

theorem witness_ResetRestoresTheStatedValues : (launch stRx false false 9 0 0 0).params.legal := by decide

/-- A CAD step from SF 11, inside the invariant. -/
theorem witness_EveryStepKeepsTheInvariant :
    (launch stCad false true 11 0x04 0 0).Inv ∧
    view (fun t => t.block.sf) (step (launch stCad false true 11 0x04 0 0)) = some 12 := by decide

theorem witness_StepsOnlyFaultOnAnOverlongRead :
    step (withPacket (launch stRx false false 7 0x40 0 0) 0 257 [] 0 0 0) = .fault .readOverlen := rfl

theorem witness_NoOperationWritesAnUnrecognizedState :
    ∃ t, exec (.badState (dwOf 0 6 false 7)) (launch 6 false false 7 0 0 0) = .next t := ⟨_, rfl⟩

theorem witness_MarkerIsSetOnlyByTheListedWriters :
    ∃ t, exec (.cadIdle (dwOf 0 2 false 7)) (launch stCad false true 7 0 0 0) = .next t ∧
      (launch stCad false true 7 0 0 0).block.softEvent = false ∧ t.block.softEvent = true :=
  ⟨_, rfl, by decide⟩

theorem witness_DeliverOnlyInRxOkAndStartTxOnlyInTx :
    view (fun t => (countDeliver t.actions, countStartTx t.actions))
      (exec (.rxOk (dwOf 0x40 3 false 7)) (withPacket (launch stRx false true 7 0x40 0 0) 0 1 [1] 0 0 0)) =
      some (1, 0) ∧
    view (fun t => (countDeliver t.actions, countStartTx t.actions))
      (exec (.tx (dwOf 0 4 false 7)) (launch stTx false true 7 0 0 0)) = some (0, 1) := by decide

theorem witness_InvocationsLeaveConfigurationAndOutboundSlot :
    ∃ t, Instr.dw? (.tx (dwOf 0 4 false 7)) = some (dwOf 0 4 false 7) ∧
      exec (.tx (dwOf 0 4 false 7)) (launch stTx false true 7 0 0 0) = .next t := ⟨_, rfl, rfl⟩

/-- The operation on its own, on the state after the prologue (whose action list is not empty), and the step. -/
theorem witness_ScanIsAlwaysArmedAtSf7 :
    ∃ t, exec (.cadWrap (dwOf 0x04 2 false 12)) (launch stCad false true 12 0x04 0 0).popped.prologue = .next t ∧
      (launch stCad false true 12 0x04 0 0).popped.prologue.actions.length = 2 ∧
      .armScan 0 7 ∈ t.actions.drop 2 ∧
      (view (fun t => decide (.armScan 0 7 ∈ t.actions)) (step (launch stCad false true 12 0x04 0 0))) = some true ∧
      (launch stCad false true 12 0x04 0 0).params.legal ∧
      (launch stCad false true 12 0x04 0 0).block.channel.toNat < exampleParams.numChannels :=
  ⟨_, rfl, by decide⟩

/-- The four states the statement names. -/
theorem witness_IdleInvocationKeepsTheState :
    ([stScan, stCad, stRx, stTxDone].all fun st =>
      let s := launch st false false 7 0x10 0x10 100
      decide s.invokesNext && !s.block.hopEn && s.popped.invocationActive == 0 && s.block.state == st) = true := by
  decide

theorem witness_OperationsNeverRaiseFlags :
    ∃ t, (launch stRx false false 7 0x10 0 0).params.plainRadio ∧ (launch stRx false false 7 0x10 0 0).radioStill ∧
      exec (.rxHdr (dwOf 0x10 3 false 7)) (launch stRx false false 7 0x10 0 0) = .next t :=
  ⟨_, by decide, by decide, rfl⟩

/-- An invocation, a transceiver step, a host word and the reset signal. -/
theorem witness_AgentsKeepToTheirOwnState :
    (∃ t, step (quiet (launch stRx true false 7 0 0 0)) = .next t) ∧
    (∃ t, step { launch stRx false false 7 0 0 0 with script := [.radio 0x40] } = .next t) ∧
    (∃ t, step { launch stRx false false 7 0 0 0 with script := [.host 0x8200000001] } = .next t) ∧
    ∃ t, step { launch stRx false false 7 0 0 0 with script := [.reset] } = .next t :=
  ⟨⟨_, rfl⟩, ⟨_, rfl⟩, ⟨_, rfl⟩, ⟨_, rfl⟩⟩

/-- An operation that logs; and the second of two records on their way. -/
theorem witness_LogRecordsGoToTheSink :
    (∃ t, exec (.cadIdle (dwOf 0 2 false 7)) (launch stCad false true 7 0 0 0) = .next t) ∧
    ∃ s : State, s.sink.inFlight = [LogCode.masked] ++ .cadIdle :: [] ∧
      s.script = .sink [LogCode.masked].length true :: [] :=
  ⟨⟨_, rfl⟩, { launch stCad false true 7 0 0 0 with
    sink := ⟨[.masked, .cadIdle], []⟩, script := [.sink 1 true] }, rfl, rfl⟩

end Sys2Proof.Tests
end

section
/-! The action list of each operation, said once for all 31 rows, and from it: every ARM_SCAN carries SF 7 and
the current channel, and the log sink is handed the LOG records of the list. -/

namespace Sys2Proof.Machine
open Sys2Proof

/-! ### What each operation emits -/

/-- The action of RESUME (43_rx.md R161): the scan armed again where hop or CAD is enabled, else the
receiver. -/
def resumeAction (b : Block) : Action := if hopOrCad b then .armScan b.channel 7 else .startRxCont

theorem armScan_eq_resumeAction {b : Block} {ch : Byte} {sf : BitVec 4} :
    .armScan ch sf = resumeAction b ↔ hopOrCad b = true ∧ ch = b.channel ∧ sf = 7 := by
  unfold resumeAction; split <;> simp [*]

/-- The actions an operation appends to the list it is given, in their order; none for a host transaction and
the reset signal, which are no operations of an invocation. `exec_appends` ties it to `exec`. -/
def emitted (s : State) : Instr → List Action
  | .hopDoneTo _ | .hopEventTo _ =>
    hopPrepLogs s.block ++ [.armScan (nextChannel s.params s.block.channel) 7]
  | .hopIdle _ => hopPrepLogs s.block
  | .init _ => [.clrFlags 0xFF, .clrMask]
  | .scanDet _ | .cadDet _ =>
    [.setDio dioRx, .rd (.status .rssi) (detectRssi s), .clrFlags 0xFF, .startRxSingle]
  | .scanDone _ =>
    [.opmodeCad, .rd (.status .rssi) ((s.emit .opmodeCad).statusValue .rssi), .clrMask, .clrFlags 0xFF]
  | .scanUnk _ => [.log .scanUnknown, .clrMask, .clrFlags 0xFF]
  | .cadStep _ =>
    [.setRate (s.block.sf + 1) s.params.cadRateFlags, .clrMask] ++
    (if s.params.cadStepClear = 0 then [] else [.clrFlags s.params.cadStepClear]) ++ [.opmodeCad]
  | .cadWrap _ => [.armScan s.block.channel 7, .clrMask, .clrFlags 0xFF]
  | .cadIdle _ => [.log .cadIdle]
  | .cadUnk _ => [.log .cadUnknown, .armScan s.block.channel 7, .clrMask, .clrFlags 0xFF]
  | .rxCrcerr _ =>
    [.rd (.status .crcOn) (s.statusValue .crcOn), .log .rxCrc, .clrMask, .clrFlags mRxSet,
      resumeAction s.block]
  | .rxReadfail _ =>
    [.rd (.status .crcOn) (s.statusValue .crcOn),
      .readPacket (BitVec.ofInt 16 s.rxLength) s.rxStaged.packetBytes, .log .rxReadfail, .clrMask]
  | .rxOk _ =>
    [.rd (.status .crcOn) (s.statusValue .crcOn),
      .readPacket (BitVec.ofInt 16 s.rxLength) s.rxStaged.packetBytes,
      .rd (.status .pktSnr) (okSnr s.rxRead), .rd (.status .pktRssi) (okRssi s.rxRead),
      .rd (.status .sfCfg) (okSf s.rxRead),
      .deliver (inboundRecord (okBlock s.rxRead s.rxLength.toNat)) (okParser s.rxRead),
      .log .parserResult, resumeAction s.block, .clrMask, .clrFlags 0xFF]
  | .rxTimeout _ =>
    [.clrMask, .clrFlags 0xFF] ++
    (if hopOrCad s.block then [.log .rxTimeout, .armScan s.block.channel 7] else [.startRxCont])
  | .rxUnk _ => [.log .rxUnknown]
  | .tx d =>
    (if d.active = 0 then [.log .txForced] else []) ++
    [.clrMask, .clrFlags 0xFF, .startTx (outboundRecord s.block)]
  | .txdoneOk _ => [.clrMask, .clrFlags 0xFF, resumeAction s.block]
  | .txdoneWait _ =>
    if s.params.txDeadline < elapsed s.now s.block.sendTime then [.log .txDeadline, .startRxCont] else []
  | .txdoneUnk _ => [.log .txdoneUnknown, .clrMask, .clrFlags 0xFF]
  | .badState _ => [.log .badState, resumeAction s.block, .clrMask, .clrFlags 0xFF]
  | .scanIdle _ | .rxHdr _ | .rxIdle _ | .hRead _ _ | .hCfgWrite _ | .hOutWrite _ _
  | .hOutPayloadWrite _ | .hTxRequest | .reset => []

/-- A host transaction and the reset signal write the block, the reply and the count of draws, and nothing
else (45_host.md R205 to R213, 70_reset_and_hazards.md R262). -/
theorem exec_host_frame {i : Instr} (hi : i.dw? = none) {s t : State} (h : exec i s = .next t) :
    t = { s with block := t.block, reply := t.reply, draws := t.draws } := by
  cases i with
  | hRead | hCfgWrite | hOutWrite | hOutPayloadWrite | hTxRequest =>
    simp only [exec, execHRead, execHCfgWrite, execHOutWrite, execHOutPayloadWrite, execHTxRequest] at h
    repeat' split at h
    all_goals cases h; rfl
  | reset => cases h; rfl
  | _ => cases hi

/-- Every operation that answers a next state appends the actions `emitted` names, and hands the log sink
the LOG records among them (60_exceptions.md R229). -/
theorem exec_appends {i : Instr} {s t : State} (h : exec i s = .next t) :
    t.actions = s.actions ++ emitted s i ∧ t.sink = s.sink.hand (logCodes (emitted s i)) := by
  cases i with
  | hopDoneTo | hopEventTo | hopIdle | init | scanDet | cadDet | scanDone | scanIdle | scanUnk | cadWrap
  | cadIdle | cadUnk | rxHdr | rxIdle | rxUnk | txdoneUnk => cases h; simp [emitted]
  | cadStep => cases h; by_cases hc : s.params.cadStepClear = 0#8 <;> simp [emitted, hc]
  | rxCrcerr | txdoneOk | badState => cases h; simp [emitted, resumeAction, hopOrCad]
  | rxReadfail =>
    simp only [exec, execRxReadfail] at h
    split at h <;> cases h
    simp [emitted]
  | rxOk =>
    simp only [exec, execRxOk] at h
    split at h <;> cases h
    simp [emitted, resumeAction, okBlock, hopOrCad]
  | rxTimeout => cases h; by_cases hc : hopOrCad s.block <;> simp [emitted, hc]
  | tx d => cases h; by_cases hd : d.active = 0#8 <;> simp [emitted, hd]
  | txdoneWait =>
    cases h; by_cases hd : s.params.txDeadline < elapsed s.now s.block.sendTime <;> simp [emitted, hd]
  | hRead | hCfgWrite | hOutWrite | hOutPayloadWrite | hTxRequest | reset =>
    rw [exec_host_frame rfl h]; simp [emitted]

/-! ### The operation a step runs -/

theorem runStimulus_cases {s t : State} {x : Stimulus} (h : s.runStimulus x = .next t) :
    (∃ i, exec i s.prologue = .next t) ∨ (∃ i, exec i s.startStep = .next t) ∨ t.actions = [] := by
  cases x with
  | invoke =>
    simp only [State.runStimulus, State.invoke] at h
    split at h
    · exact .inl ⟨_, h⟩
    · cases h
  | host w =>
    simp only [State.runStimulus, State.hostStep] at h
    split at h
    · exact .inr (.inl ⟨_, h⟩)
    · cases h; exact .inr (.inr rfl)
  | reset => exact .inr (.inl ⟨.reset, h⟩)
  | radio | raiseDuring | setMask | time | answer | answerPkt | answerParser | sink =>
    cases h; exact .inr (.inr rfl)

/-- A step runs an operation after the prologue, or one on a fresh action list, or it emits nothing. -/
theorem step_next_cases {s t : State} (h : step s = .next t) :
    (∃ i, exec i s.popped.prologue = .next t) ∨ (∃ i, exec i s.popped.startStep = .next t) ∨
      t.actions = [] := by
  rcases step_cases s with ⟨x, rest, hs, -, hx⟩ | ⟨-, hi⟩ | ⟨-, -, hw⟩
  · rw [hx, ← popped_of_script hs] at h
    exact runStimulus_cases h
  · rw [hi] at h
    exact runStimulus_cases (x := .invoke) h
  · rw [hw] at h; cases h; exact .inr (.inr rfl)

/-! ### ARM_SCAN -/

theorem nextChannel_lt {p : Params} (h : p.legal) (ch : Byte) : (nextChannel p ch).toNat < p.numChannels := by
  obtain ⟨-, -, -, -, -, -, hpos, hle, -⟩ := h
  have hlt := Nat.mod_lt (ch.toNat + 1) hpos
  simp only [nextChannel, BitVec.toNat_ofNat]
  omega

theorem armScan_not_mem_hopPrepLogs (b : Block) (ch : Byte) (sf : BitVec 4) :
    .armScan ch sf ∉ hopPrepLogs b := by
  unfold hopPrepLogs; split <;> split <;> simp

/-- ARM_SCAN comes from HOPPER and RESCAN alone (41_hopper.md R129, R131): it carries SF 7 and the channel the
operation leaves, the old one or the next, and `sf` ends at 7 (R132). -/
theorem armScan_of_mem_emitted {i : Instr} {s t : State} {ch : Byte} {sf : BitVec 4}
    (h : exec i s = .next t) (hm : .armScan ch sf ∈ emitted s i) :
    sf = 7 ∧ t.block.sf = 7 ∧ ch = t.block.channel ∧
      (ch = s.block.channel ∨ ch = nextChannel s.params s.block.channel) := by
  cases i with
  | hopDoneTo | hopEventTo =>
    obtain ⟨rfl, rfl⟩ : ch = _ ∧ sf = 7 := by simpa [emitted, armScan_not_mem_hopPrepLogs] using hm
    cases h; simp
  | cadWrap | cadUnk =>
    obtain ⟨rfl, rfl⟩ : ch = _ ∧ sf = 7 := by simpa [emitted] using hm
    cases h; simp
  | rxCrcerr | txdoneOk | badState =>
    obtain ⟨he, rfl, rfl⟩ : hopOrCad s.block = true ∧ ch = _ ∧ sf = 7 := by
      simpa [emitted, armScan_eq_resumeAction] using hm
    cases h; simp only [hopOrCad] at he; simp [hopOrCad, he]
  | rxOk =>
    obtain ⟨he, rfl, rfl⟩ : hopOrCad s.block = true ∧ ch = _ ∧ sf = 7 := by
      simpa [emitted, armScan_eq_resumeAction] using hm
    simp only [exec, execRxOk] at h
    split at h <;> cases h
    simp only [hopOrCad] at he; simp [hopOrCad, okBlock, he]
  | rxTimeout =>
    by_cases he : hopOrCad s.block
    · obtain ⟨rfl, rfl⟩ : ch = _ ∧ sf = 7 := by simpa [emitted, he] using hm
      cases h; simp [he]
    · simp [emitted, he] at hm
  | hopIdle => exact (armScan_not_mem_hopPrepLogs _ _ _ hm).elim
  | cadStep | tx | txdoneWait => simp only [emitted] at hm; split at hm <;> simp at hm
  | init | scanDet | cadDet | scanDone | scanIdle | scanUnk | cadIdle | rxReadfail | rxHdr | rxIdle | rxUnk
  | txdoneUnk | hRead | hCfgWrite | hOutWrite | hOutPayloadWrite | hTxRequest | reset =>
    simp [emitted] at hm

/-- What `Obligations.ScanIsAlwaysArmedAtSf7` says of one ARM_SCAN of an operation from `s` to `t`. -/
def scanArmed (s t : State) (ch : Byte) (sf : BitVec 4) : Prop :=
  sf = 7 ∧ t.block.sf = 7 ∧ ch = t.block.channel ∧
    (s.params.legal → s.block.channel.toNat < s.params.numChannels → ∃ f, s.params.carrier ch = some f)

theorem scanArmed_of_mem_emitted {i : Instr} {s t : State} {ch : Byte} {sf : BitVec 4}
    (h : exec i s = .next t) (hm : .armScan ch sf ∈ emitted s i) : scanArmed s t ch sf := by
  obtain ⟨hsf, htsf, htch, hch⟩ := armScan_of_mem_emitted h hm
  refine ⟨hsf, htsf, htch, fun hlegal hplan => carrier_of_legal hlegal ?_⟩
  rcases hch with rfl | rfl
  · exact hplan
  · exact nextChannel_lt hlegal _

/-- From a list that holds no ARM_SCAN, every ARM_SCAN of the list an operation leaves is its own. -/
theorem scanArmed_of_exec {i : Instr} {s t : State} {ch : Byte} {sf : BitVec 4}
    (h : exec i s = .next t) (hs : .armScan ch sf ∉ s.actions) (hm : .armScan ch sf ∈ t.actions) :
    scanArmed s t ch sf := by
  rw [(exec_appends h).1, List.mem_append] at hm
  exact scanArmed_of_mem_emitted h (hm.resolve_left hs)

theorem scanArmed_of_step {s t : State} {ch : Byte} {sf : BitVec 4} (h : step s = .next t)
    (hm : .armScan ch sf ∈ t.actions) : scanArmed s t ch sf := by
  rcases step_next_cases h with ⟨i, hi⟩ | ⟨i, hi⟩ | hnil
  · simpa [scanArmed] using scanArmed_of_exec hi (armScan_not_mem_prologue _ _ _) hm
  · simpa [scanArmed] using scanArmed_of_exec hi (by simp) hm
  · simp [hnil] at hm

/-- Settles O56: ARM_SCAN is emitted by HOPPER and RESCAN alone, and the prologue emits none. -/
theorem scanIsAlwaysArmedAtSf7 : Obligations.ScanIsAlwaysArmedAtSf7 :=
  ⟨fun i s _ h => ⟨emitted s i, (exec_appends h).1, fun _ _ hm => scanArmed_of_mem_emitted h hm⟩,
    fun _ _ _ _ h hm => scanArmed_of_step h hm⟩

/-! ### The log sink -/

/-- The sink takes the record that stands after `before`, and keeps it or drops it (60_exceptions.md R252). -/
theorem sinkTakes_eq {s : State} {before after : List LogCode} {c : LogCode} (keep : Bool)
    (h : s.sink.inFlight = before ++ c :: after) :
    s.sinkTakes before.length keep = { s with sink := {
      inFlight := before ++ after
      kept := if keep then s.sink.kept ++ [c] else s.sink.kept } } := by
  simp [State.sinkTakes, h, List.eraseIdx_append_of_length_le]

/-- Settles O60: each operation hands over the LOG records of the list it appends, and the sink's step is
`sinkTakes` on the fresh action list. -/
theorem logRecordsGoToTheSink : Obligations.LogRecordsGoToTheSink := by
  refine ⟨fun i s _ h => ⟨emitted s i, exec_appends h⟩, fun s before after c keep rest hsink hscript => ?_⟩
  rw [step_of_script hscript]
  exact congrArg Host.Outcome.next
    (sinkTakes_eq (s := ({ s with script := rest } : State).startStep) keep hsink)

end Sys2Proof.Machine
end

section
/-! What each operation writes to the block, said once: a table for the 25 operations of an invocation, and the
writes a host transaction or the reset signal can make. From it: no operation writes state code 6 or 7, only the
writers R112 lists turn the marker on, an invocation leaves the configuration and the outbound slot alone, and
every step keeps the invariant. -/

namespace Sys2Proof.Machine
open Sys2Proof

/-! ### What an operation of an invocation writes -/

/-- The block after RESUME (43_rx.md R161). -/
def resumedBlock (b : Block) : Block :=
  { b with
    state := if hopOrCad b then stScan else stRx
    sf := if hopOrCad b then 7 else b.sf }

/-- The block an operation of an invocation leaves; a host transaction and the reset signal are none
(`HostWrites` says what those write). `exec_invocation` ties it to `exec`. -/
def blockAfter (s : State) : Instr → Block
  | .hopDoneTo _ | .hopEventTo _ =>
    { s.block with
      state := stScan, channel := nextChannel s.params s.block.channel, sf := 7,
      doneTime := s.now, eventTime := s.now }
  | .hopIdle _ =>
    { s.block with eventTime := clamp s.now s.block.eventTime, doneTime := clamp s.now s.block.doneTime }
  | .init _ | .txdoneUnk _ => { s.block with softEvent := false, state := stScan }
  | .scanDet _ | .cadDet _ =>
    { s.block with softEvent := false, detRssi := detectRssi s, detTime := s.now, state := stRx }
  | .scanDone _ =>
    { s.block with
      state := if rssiExceeds s.params s.block.hopEn ((s.emit .opmodeCad).statusValue .rssi) then stCad
        else s.block.state
      doneTime := s.now }
  | .scanIdle _ => { s.block with softEvent := false }
  | .cadStep _ => { s.block with sf := s.block.sf + 1, softEvent := false, doneTime := s.now }
  | .cadWrap _ => { s.block with sf := 7, softEvent := true, state := stScan, doneTime := s.now }
  | .cadIdle _ => { s.block with softEvent := true }
  | .cadUnk _ => { s.block with sf := 7, softEvent := true, state := stScan }
  | .rxCrcerr _ => resumedBlock s.block
  | .rxReadfail _ => { s.rxRead.block with softEvent := true, state := stScan }
  | .rxOk _ =>
    { resumedBlock (okBlock s.rxRead s.rxLength.toNat) with eventTime := s.now, softEvent := false }
  | .rxTimeout _ =>
    { s.block with
      state := if hopOrCad s.block then stScan else s.block.state
      sf := if hopOrCad s.block then 7 else s.block.sf
      eventTime := s.now, doneTime := s.now }
  | .tx _ => { s.block with sendTime := s.now, softEvent := true, state := stTxDone }
  | .txdoneOk _ => { resumedBlock s.block with softEvent := false }
  | .txdoneWait _ => { s.block with sendTime := clamp s.now s.block.sendTime }
  | .badState _ => { resumedBlock s.block with eventTime := s.now }
  | .scanUnk _ | .rxHdr _ | .rxIdle _ | .rxUnk _ | .hRead _ _ | .hCfgWrite _ | .hOutWrite _ _
  | .hOutPayloadWrite _ | .hTxRequest | .reset => s.block

/-- An operation of an invocation that answers a next state leaves the block `blockAfter` names, the time and
the parameters. -/
theorem exec_invocation {i : Instr} {d : Dw} (hi : i.dw? = some d) {s t : State} (h : exec i s = .next t) :
    t.block = blockAfter s i ∧ t.now = s.now ∧ t.params = s.params := by
  cases i with
  | hopDoneTo | hopEventTo | hopIdle | init | scanDet | cadDet | scanDone | scanIdle | scanUnk | cadWrap
  | cadIdle | cadUnk | rxHdr | rxIdle | rxUnk | txdoneUnk => cases h; simp [blockAfter]
  | cadStep => cases h; by_cases hc : s.params.cadStepClear = 0#8 <;> simp [blockAfter, hc]
  | rxCrcerr | badState => cases h; simp [blockAfter, resumedBlock]
  | txdoneOk => cases h; simp [blockAfter, resumedBlock, hopOrCad]
  | rxReadfail | rxOk =>
    simp only [exec, execRxReadfail, execRxOk] at h
    split at h <;> cases h
    simp [blockAfter, resumedBlock]
  | rxTimeout => cases h; by_cases hc : hopOrCad s.block <;> simp [blockAfter, hc]
  | tx d => cases h; by_cases hd : d.active = 0#8 <;> simp [blockAfter, hd]
  | txdoneWait =>
    cases h; by_cases hd : s.params.txDeadline < elapsed s.now s.block.sendTime <;> simp [blockAfter, hd]
  | hRead | hCfgWrite | hOutWrite | hOutPayloadWrite | hTxRequest | reset => cases hi

/-! ### What a host transaction or the reset signal writes -/

/-- The blocks a host transaction or the reset signal can leave (45_host.md R206 to R213). -/
inductive HostWrites (s : State) : Instr → Block → Prop
  /-- a read, or a refused transaction -/
  | nothing (i : Instr) : HostWrites s i s.block
  /-- the configuration bits (R207) -/
  | config (data : Word) :
    HostWrites s (.hCfgWrite data)
      { s.block with hopEn := data[0], cadEn := data[1], xcvrModel := data[2] }
  /-- outbound metadata; a length that is not the old one lies within the capacity (R208) -/
  | outMeta (reg : BitVec 7) (data : Word) (outLen : Half) (outTmst : Word) (outSf : BitVec 4) (outPower : Byte)
      (outFreq : Word) (outCrc outIq : Bool)
      (hlen : outLen = s.block.outLen ∨ outLen.toNat ≤ s.params.outCap) :
    HostWrites s (.hOutWrite reg data)
      { s.block with outLen, outTmst, outSf, outPower, outFreq, outCrc, outIq }
  /-- one byte of OUT_BUF, inside its space (R209) -/
  | outByte (data : Word) (hidx : payloadIndex data < s.params.outCap) :
    HostWrites s (.hOutPayloadWrite data)
      { s.block with outBuf := memWrite s.block.outBuf (payloadIndex data) (payloadByte data) }
  /-- the slot claimed (R210) -/
  | txRequest : HostWrites s .hTxRequest { s.block with state := stTx, softEvent := true }
  /-- the reset signal (70_reset_and_hazards.md R260) -/
  | reset : HostWrites s .reset (Block.afterReset s.params s.draws)

theorem exec_hOutWrite_writes {reg : BitVec 7} {data : Word} {s t : State}
    (h : exec (.hOutWrite reg data) s = .next t) : HostWrites s (.hOutWrite reg data) t.block := by
  simp only [exec, execHOutWrite] at h
  split at h
  · cases h; exact .nothing _
  · split at h
    · split at h <;> cases h
      · exact .nothing _
      · next hle =>
        refine .outMeta _ _ _ _ _ _ _ _ _ (.inr ?_)
        rw [BitVec.extractLsb'_toNat]
        exact (Nat.mod_le _ _).trans (Nat.not_lt.1 hle)
    · cases h; exact .outMeta _ _ _ _ _ _ _ _ _ (.inl rfl)
    · split at h <;> cases h
      · exact .nothing _
      · exact .outMeta _ _ _ _ _ _ _ _ _ (.inl rfl)
    · split at h <;> cases h
      · exact .nothing _
      · exact .outMeta _ _ _ _ _ _ _ _ _ (.inl rfl)
    · cases h; exact .outMeta _ _ _ _ _ _ _ _ _ (.inl rfl)
    · split at h <;> cases h
      · exact .nothing _
      · exact .outMeta _ _ _ _ _ _ _ _ _ (.inl rfl)
    · cases h; exact .nothing _

/-- A host transaction or the reset signal writes only what `HostWrites` names. -/
theorem exec_host_writes {i : Instr} (hi : i.dw? = none) {s t : State} (h : exec i s = .next t) :
    HostWrites s i t.block := by
  cases i with
  | hRead =>
    simp only [exec, execHRead] at h
    repeat' split at h
    all_goals cases h; exact .nothing _
  | hCfgWrite data =>
    simp only [exec, execHCfgWrite] at h
    split at h <;> cases h
    · exact .nothing _
    · exact .config _
  | hOutWrite => exact exec_hOutWrite_writes h
  | hOutPayloadWrite data =>
    simp only [exec, execHOutPayloadWrite] at h
    split at h
    · cases h; exact .nothing _
    · split at h <;> cases h
      · exact .nothing _
      · next hc =>
        simp only [Bool.or_eq_true, decide_eq_true_eq, not_or, Nat.not_le] at hc
        exact .outByte _ hc.2
  | hTxRequest =>
    simp only [exec, execHTxRequest] at h
    split at h <;> cases h
    · exact .nothing _
    · exact .txRequest
  | reset => cases h; exact .reset
  | _ => cases hi

/-- No operation writes the time or the parameters. -/
theorem exec_now_params {i : Instr} {s t : State} (h : exec i s = .next t) :
    t.now = s.now ∧ t.params = s.params := by
  cases hi : i.dw? with
  | some d => exact (exec_invocation hi h).2
  | none => rw [exec_host_frame hi h]; exact ⟨rfl, rfl⟩

/-! ### The state code, the marker, the configuration and the outbound slot -/

theorem stInit_le : stInit.toNat ≤ 5 := by decide
theorem stScan_le : stScan.toNat ≤ 5 := by decide
theorem stCad_le : stCad.toNat ≤ 5 := by decide
theorem stRx_le : stRx.toNat ≤ 5 := by decide
theorem stTx_le : stTx.toNat ≤ 5 := by decide
theorem stTxDone_le : stTxDone.toNat ≤ 5 := by decide

theorem resumedBlock_state_le (b : Block) : (resumedBlock b).state.toNat ≤ 5 := by
  unfold resumedBlock
  split
  · exact stScan_le
  · exact stRx_le

theorem blockAfter_state (s : State) (i : Instr) :
    (blockAfter s i).state = s.block.state ∨ (blockAfter s i).state.toNat ≤ 5 := by
  cases i with
  | hopDoneTo | hopEventTo | init | txdoneUnk | cadWrap | cadUnk | rxReadfail => exact .inr stScan_le
  | scanDet | cadDet => exact .inr stRx_le
  | tx => exact .inr stTxDone_le
  | scanDone =>
    simp only [blockAfter]
    split
    · exact .inr stCad_le
    · exact .inl rfl
  | rxTimeout =>
    simp only [blockAfter]
    split
    · exact .inr stScan_le
    · exact .inl rfl
  | rxCrcerr | rxOk | txdoneOk | badState => exact .inr (resumedBlock_state_le _)
  | hopIdle | scanIdle | scanUnk | cadStep | cadIdle | rxHdr | rxIdle | rxUnk | txdoneWait | hRead
  | hCfgWrite | hOutWrite | hOutPayloadWrite | hTxRequest | reset => exact .inl rfl

theorem HostWrites.state {s : State} {i : Instr} {b : Block} (h : HostWrites s i b) :
    b.state = s.block.state ∨ b.state.toNat ≤ 5 := by
  cases h with
  | nothing | config | outMeta | outByte => exact .inl rfl
  | txRequest => exact .inr stTx_le
  | reset => exact .inr stInit_le

/-- Settles O52: the table of writes, and the writes of the host. -/
theorem noOperationWritesAnUnrecognizedState : Obligations.NoOperationWritesAnUnrecognizedState := by
  intro i s t h
  cases hi : i.dw? with
  | some d => rw [(exec_invocation hi h).1]; exact blockAfter_state s i
  | none => exact (exec_host_writes hi h).state

/-- An operation that is none of R112's writers leaves the marker as it was, or 0. -/
theorem blockAfter_softEvent {s : State} {i : Instr} (hi : i.setsMarker = false) :
    (blockAfter s i).softEvent = s.block.softEvent ∨ (blockAfter s i).softEvent = false := by
  cases i with
  | init | txdoneUnk | scanDet | cadDet | scanIdle | cadStep | rxOk | txdoneOk => exact .inr rfl
  | cadWrap | cadIdle | cadUnk | rxReadfail | tx | hTxRequest => cases hi
  | _ => exact .inl rfl

theorem HostWrites.softEvent {s : State} {i : Instr} {b : Block} (h : HostWrites s i b)
    (hi : i.setsMarker = false) : b.softEvent = s.block.softEvent ∨ b.softEvent = false := by
  cases h with
  | nothing | config | outMeta | outByte => exact .inl rfl
  | txRequest => cases hi
  | reset => exact .inr rfl

theorem exec_softEvent {i : Instr} {s t : State} (h : exec i s = .next t) (hm : i.setsMarker = false) :
    t.block.softEvent = s.block.softEvent ∨ t.block.softEvent = false := by
  cases hi : i.dw? with
  | some d => rw [(exec_invocation hi h).1]; exact blockAfter_softEvent hm
  | none => exact (exec_host_writes hi h).softEvent hm

/-- Settles O53: an operation that is no writer leaves the marker as it was, or 0. -/
theorem markerIsSetOnlyByTheListedWriters : Obligations.MarkerIsSetOnlyByTheListedWriters := by
  intro i s t h hs ht
  by_contra hm
  rcases exec_softEvent h (Bool.eq_false_of_not_eq_true hm) with he | he
  · rw [hs, ht] at he; cases he
  · rw [ht] at he; cases he

/-- Settles O55: the table of writes, row by row. -/
theorem invocationsLeaveConfigurationAndOutboundSlot :
    Obligations.InvocationsLeaveConfigurationAndOutboundSlot := by
  intro i d s t hi h
  rw [(exec_invocation hi h).1]
  cases i with
  | hopDoneTo | hopEventTo => cases hi; simp [blockAfter]
  | rxReadfail | rxOk => simp [blockAfter, resumedBlock, okBlock]
  | _ => exact ⟨rfl, rfl, rfl, rfl, rfl, rfl, rfl, rfl, rfl, rfl, rfl, .inl rfl⟩

/-! ### The bounds of the block's registers -/

/-- A number reduced modulo `P_TIME_MOD` and held in a 32-bit word is a time value (R33). -/
theorem ofNat_mod_timeMod_lt {p : Params} (h : p.legal) (n : Nat) :
    (BitVec.ofNat 32 (n % p.timeMod)).toNat < p.timeMod := by
  obtain ⟨htwo, -⟩ := h
  rw [BitVec.toNat_ofNat]
  exact (Nat.mod_le _ _).trans_lt (Nat.mod_lt _ (by omega))

theorem seven_le_sf7 : 7 ≤ (7 : BitVec 4).toNat := by decide
theorem sf7_le_twelve : (7 : BitVec 4).toNat ≤ 12 := by decide

theorem clamp_lt {m : Nat} {t x : Word} (ht : t.toNat < m) (hx : x.toNat < m) : (clamp t x).toNat < m := by
  unfold clamp; split <;> assumption

/-- The reset values and the draws for the registers that have none lie within the bounds (R20, R260). -/
theorem afterReset_wf {p : Params} (h : p.legal) (k : Nat) : (Block.afterReset p k).wf p := by
  have htime : ∀ j, (freeTime p j).toNat < p.timeMod := fun j => ofNat_mod_timeMod_lt h _
  obtain ⟨-, -, -, -, -, -, hchan, -⟩ := h
  have hlen : (Block.afterReset p k).outLen.toNat ≤ p.outCap := by
    simp only [Block.afterReset, BitVec.toNat_ofNat]
    exact (Nat.mod_le _ _).trans (Nat.lt_succ_iff.1 (Nat.mod_lt _ (Nat.succ_pos _)))
  exact ⟨stInit_le, seven_le_sf7, sf7_le_twelve, hchan, htime _, htime _, htime _, htime _, htime _,
    Nat.zero_le _, hlen, freeMemory_wfBelow _ _, freeMemory_wfBelow _ _⟩

/-- Settles O47: RESET leaves `Block.afterReset`, and nothing but the block and the count of draws changes. -/
theorem resetRestoresTheStatedValues : Obligations.ResetRestoresTheStatedValues := fun s h =>
  ⟨_, rfl, rfl, rfl, rfl, rfl, rfl, rfl, rfl, rfl, afterReset_wf h s.draws, rfl, rfl, rfl,
    rfl, rfl, rfl, rfl, rfl⟩

theorem HostWrites.wf {s : State} {i : Instr} {b : Block} (h : HostWrites s i b) (hl : s.params.legal)
    (hb : s.block.wf s.params) : b.wf s.params := by
  obtain ⟨hst, hlo, hhi, hch, hev, hdone, hdet, hsend, hrx, hin, hout, hinBuf, houtBuf⟩ := hb
  cases h with
  | nothing | config =>
    exact ⟨hst, hlo, hhi, hch, hev, hdone, hdet, hsend, hrx, hin, hout, hinBuf, houtBuf⟩
  | outMeta _ _ _ _ _ _ _ _ _ hlen =>
    exact ⟨hst, hlo, hhi, hch, hev, hdone, hdet, hsend, hrx, hin, hlen.elim (· ▸ hout) id, hinBuf, houtBuf⟩
  | outByte _ hidx =>
    exact ⟨hst, hlo, hhi, hch, hev, hdone, hdet, hsend, hrx, hin, hout, hinBuf,
      memWrite_wfBelow houtBuf hidx _⟩
  | txRequest =>
    exact ⟨stTx_le, hlo, hhi, hch, hev, hdone, hdet, hsend, hrx, hin, hout, hinBuf, houtBuf⟩
  | reset => exact afterReset_wf hl _

theorem resumedBlock_wf {p : Params} {b : Block} (hb : b.wf p) : (resumedBlock b).wf p := by
  obtain ⟨-, hlo, hhi, hrest⟩ := hb
  have hsf : 7 ≤ (resumedBlock b).sf.toNat ∧ (resumedBlock b).sf.toNat ≤ 12 := by
    unfold resumedBlock
    split
    · exact ⟨seven_le_sf7, sf7_le_twelve⟩
    · exact ⟨hlo, hhi⟩
  exact ⟨resumedBlock_state_le b, hsf.1, hsf.2, hrest⟩

theorem rxRead_wf {s : State} (hs : s.Inv) (hn : s.rxOverlen = false) : s.rxRead.block.wf s.params := by
  obtain ⟨-, hnow, hst, hlo, hhi, hch, hev, hdone, hdet, hsend, -, -, hout, hinBuf, houtBuf⟩ := hs
  rw [rxRead_block]
  exact ⟨hst, hlo, hhi, hch, hev, hdone, hdet, hsend, hnow, Nat.zero_le _, hout, rxBuffer_wfBelow hinBuf hn,
    houtBuf⟩

theorem okBlock_wf {p : Params} {s : State} {n : Nat} (hb : s.block.wf p) (hn : n ≤ p.inCap) :
    (okBlock s n).wf p := by
  obtain ⟨hst, hlo, hhi, hch, hev, hdone, hdet, hsend, hrx, -, hrest⟩ := hb
  refine ⟨hst, hlo, hhi, hch, hev, hdone, hdet, hsend, hrx, ?_, hrest⟩
  simp only [okBlock, BitVec.toNat_ofNat]
  exact (Nat.mod_le _ _).trans hn

/-- What keeps an operation of an invocation within the bounds: CAD_STEP finds a spreading factor below 12,
and a packet read an answer within the contract. -/
def boundsGuard (s : State) : Instr → Prop
  | .cadStep _ => s.block.sf.toNat < 12
  | .rxReadfail _ | .rxOk _ => s.rxOverlen = false
  | _ => True

theorem blockAfter_wf {s : State} {i : Instr} (hs : s.Inv) (hg : boundsGuard s i) :
    (blockAfter s i).wf s.params := by
  have hb := hs.2.2
  have hread := rxRead_wf hs
  obtain ⟨hl, hnow, hst, hlo, hhi, hch, hev, hdone, hdet, hsend, hrx, hin, hout, hinBuf, houtBuf⟩ := hs
  have hst' : (blockAfter s i).state.toNat ≤ 5 := (blockAfter_state s i).elim (· ▸ hst) id
  cases i with
  | hopDoneTo | hopEventTo =>
    exact ⟨hst', seven_le_sf7, sf7_le_twelve, nextChannel_lt hl _, hnow, hnow, hdet, hsend, hrx, hin, hout,
      hinBuf, houtBuf⟩
  | hopIdle =>
    exact ⟨hst', hlo, hhi, hch, clamp_lt hnow hev, clamp_lt hnow hdone, hdet, hsend, hrx, hin, hout, hinBuf,
      houtBuf⟩
  | init | txdoneUnk => exact ⟨hst', hb.2⟩
  | scanDet | cadDet => exact ⟨hst', hlo, hhi, hch, hev, hdone, hnow, hsend, hrx, hin, hout, hinBuf, houtBuf⟩
  | scanDone => exact ⟨hst', hlo, hhi, hch, hev, hnow, hdet, hsend, hrx, hin, hout, hinBuf, houtBuf⟩
  | cadStep =>
    have hlt : s.block.sf.toNat < 12 := hg
    have hsf : (s.block.sf + 1).toNat = s.block.sf.toNat + 1 := by bv_omega
    have hlo' : 7 ≤ (s.block.sf + 1).toNat := by omega
    have hhi' : (s.block.sf + 1).toNat ≤ 12 := by omega
    exact ⟨hst', hlo', hhi', hch, hev, hnow, hdet, hsend, hrx, hin, hout, hinBuf, houtBuf⟩
  | cadWrap =>
    exact ⟨hst', seven_le_sf7, sf7_le_twelve, hch, hev, hnow, hdet, hsend, hrx, hin, hout, hinBuf, houtBuf⟩
  | cadUnk =>
    exact ⟨hst', seven_le_sf7, sf7_le_twelve, hch, hev, hdone, hdet, hsend, hrx, hin, hout, hinBuf, houtBuf⟩
  | rxCrcerr | txdoneOk => exact resumedBlock_wf hb
  | rxReadfail => exact ⟨hst', (hread hg).2⟩
  | rxOk =>
    have hlen : s.rxLength.toNat ≤ s.params.inCap :=
      Int.toNat_le.2 (Int.not_lt.1 (of_decide_eq_false hg))
    obtain ⟨-, hlo', hhi', hch', -, hrest⟩ := resumedBlock_wf (okBlock_wf (hread hg) hlen)
    exact ⟨hst', hlo', hhi', hch', hnow, hrest⟩
  | rxTimeout =>
    obtain ⟨-, hlo', hhi', -⟩ := resumedBlock_wf hb
    exact ⟨hst', hlo', hhi', hch, hnow, hnow, hdet, hsend, hrx, hin, hout, hinBuf, houtBuf⟩
  | tx => exact ⟨hst', hlo, hhi, hch, hev, hdone, hdet, hnow, hrx, hin, hout, hinBuf, houtBuf⟩
  | txdoneWait =>
    exact ⟨hst', hlo, hhi, hch, hev, hdone, hdet, clamp_lt hnow hsend, hrx, hin, hout, hinBuf, houtBuf⟩
  | badState =>
    obtain ⟨-, hlo', hhi', -⟩ := resumedBlock_wf hb
    exact ⟨hst', hlo', hhi', hch, hnow, hdone, hdet, hsend, hrx, hin, hout, hinBuf, houtBuf⟩
  | scanIdle | scanUnk | cadIdle | rxHdr | rxIdle | rxUnk | hRead | hCfgWrite | hOutWrite | hOutPayloadWrite
  | hTxRequest | reset => exact hb

/-! ### Every step keeps the invariant -/

theorem Inv_of_block_wf {s t : State} (hs : s.Inv) (hn : t.now = s.now) (hp : t.params = s.params)
    (hb : t.block.wf s.params) : t.Inv := by
  obtain ⟨hl, hnow, -⟩ := hs
  unfold State.Inv
  rw [hp, hn]
  exact ⟨hl, hnow, hb⟩

theorem startStep_Inv {s : State} (hs : s.Inv) : s.startStep.Inv := hs

theorem popped_Inv {s : State} (hs : s.Inv) : s.popped.Inv :=
  Inv_of_block_wf hs (popped_now s) (popped_params s) (by rw [popped_block]; exact hs.2.2)

theorem prologue_Inv {s : State} (hs : s.Inv) : s.prologue.Inv :=
  Inv_of_block_wf hs (prologue_now s) (prologue_params s) (by rw [prologue_block]; exact hs.2.2)

/-- Of the guard only CAD_STEP's half is left to show: a packet read whose answer is above the capacity
answers no next state (43_rx.md R169). -/
theorem boundsGuard_of_exec {i : Instr} {s t : State} (h : exec i s = .next t)
    (hcad : ∀ d, i = .cadStep d → s.block.sf.toNat < 12) : boundsGuard s i := by
  cases i with
  | cadStep d => exact hcad d rfl
  | rxReadfail | rxOk =>
    simp only [exec, execRxReadfail, execRxOk] at h
    split at h
    · cases h
    · next hn => exact Bool.eq_false_of_not_eq_true hn
  | _ => trivial

/-- An operation keeps the invariant, CAD_STEP where its row's guard holds. -/
theorem exec_Inv {i : Instr} {s t : State} (hs : s.Inv) (h : exec i s = .next t)
    (hcad : ∀ d, i = .cadStep d → s.block.sf.toNat < 12) : t.Inv := by
  obtain ⟨hn, hp⟩ := exec_now_params h
  refine Inv_of_block_wf hs hn hp ?_
  cases hi : i.dw? with
  | some d => rw [(exec_invocation hi h).1]; exact blockAfter_wf hs (boundsGuard_of_exec h hcad)
  | none => exact (exec_host_writes hi h).wf hs.1 hs.2.2

theorem sf_lt_of_pick_cadStep {d e : Dw} : ∀ r ∈ dwRows, r.pick d = .row (.cadStep e) →
    r.guard d = true → d.sf.toNat < 12 := by simp [dwRows]

/-- The opcode map selects CAD_STEP only below SF 12 (30_encoding.md R83). -/
theorem sf_lt_of_decodeDw_cadStep {d e : Dw} (h : decodeDw d.word = .ok (.row (.cadStep e))) :
    d.sf.toNat < 12 := by
  unfold decodeDw at h
  rw [Dw.ofWord_word] at h
  split at h
  · cases h
  · split at h
    · next r hr =>
      have hacc := List.find?_some hr
      rw [Row.accepts, Dw.ofWord_word, Bool.and_eq_true] at hacc
      exact sf_lt_of_pick_cadStep r (List.mem_of_find?_eq_some hr) (Except.ok.inj h) hacc.2
    · cases h

theorem sf_lt_of_invocationInstr_cadStep {s : State} {d : Dw} (h : s.invocationInstr = .ok (.cadStep d)) :
    s.block.sf.toNat < 12 := by
  unfold State.invocationInstr at h
  split at h
  · next sel hsel =>
    cases sel with
    | row i =>
      cases h
      exact sf_lt_of_decodeDw_cadStep hsel
    | hopGroup | rxDoneGroup =>
      simp only [resolve, Except.ok.injEq] at h
      repeat' split at h
      all_goals cases h
  · cases h

theorem invoke_Inv {s t : State} (hs : s.Inv) (h : s.invoke = .next t) : t.Inv := by
  unfold State.invoke at h
  split at h
  · next i hi =>
    refine exec_Inv (prologue_Inv hs) h fun d hd => ?_
    rw [prologue_block]
    exact sf_lt_of_invocationInstr_cadStep (hd ▸ hi)
  · cases h

/-- A host word names a host transaction (45_host.md R205). -/
theorem decodeHost_dw? {w : BitVec 40} {i : Instr} (h : decodeHost w = .ok i) : i.dw? = none := by
  simp only [decodeHost] at h
  repeat' split at h
  all_goals cases h
  all_goals rfl

theorem hostStep_Inv {s t : State} {w : BitVec 40} (hs : s.Inv) (h : s.hostStep w = .next t) : t.Inv := by
  unfold State.hostStep at h
  split at h
  · next i hi =>
    refine exec_Inv (startStep_Inv hs) h fun d hd => ?_
    cases hd ▸ decodeHost_dw? hi
  · cases h; exact hs

/-- The other agents write no block state, and a time they set is reduced modulo `P_TIME_MOD` (45_host.md R205,
60_exceptions.md R242). -/
theorem stimulate_Inv {s : State} (hs : s.Inv) (x : Stimulus) : (s.stimulate x).Inv := by
  cases x with
  | time n => exact ⟨hs.1, ofNat_mod_timeMod_lt hs.1 n, hs.2.2⟩
  | _ => exact hs

theorem runStimulus_Inv {s t : State} {x : Stimulus} (hs : s.Inv) (h : s.runStimulus x = .next t) :
    t.Inv := by
  cases x with
  | invoke => exact invoke_Inv hs h
  | host w => exact hostStep_Inv hs h
  | reset => exact exec_Inv (i := .reset) (startStep_Inv hs) h (fun _ hd => by cases hd)
  | radio | raiseDuring | setMask | time | answer | answerPkt | answerParser | sink =>
    cases h; exact stimulate_Inv (startStep_Inv hs) _

/-- Settles O49: a script entry's step, an invocation and a wait each keep the invariant. -/
theorem everyStepKeepsTheInvariant : Obligations.EveryStepKeepsTheInvariant := by
  intro s t hs h
  rcases step_cases s with ⟨x, rest, hscript, -, hx⟩ | ⟨-, hi⟩ | ⟨-, -, hw⟩
  · rw [hx] at h
    exact runStimulus_Inv (s := { s with script := rest }) hs h
  · rw [hi] at h
    exact invoke_Inv (popped_Inv hs) h
  · rw [hw] at h
    cases h
    exact hs

/-! ### The invariant at reset -/

/-- The parameters the machine starts with are legal: the open ones where they are, else set E. -/
theorem config_params_legal : Config.params.legal := by
  unfold Config.params
  split
  · next h => exact h
  · decide

/-- Settles O50: the values of `Block.reset` lie within the bounds under legal parameters. -/
theorem resetMeetsTheInvariant : Obligations.ResetMeetsTheInvariant := by
  obtain ⟨htwo, -, -, -, -, -, hchan, -⟩ := config_params_legal
  have htime : 0 < Config.params.timeMod := by omega
  exact ⟨config_params_legal, htime, stInit_le, seven_le_sf7, sf7_le_twelve, hchan, htime, htime, htime, htime,
    htime, Nat.zero_le _, Nat.zero_le _, ⟨wf_nil, List.forall_mem_nil _⟩, ⟨wf_nil, List.forall_mem_nil _⟩⟩

end Sys2Proof.Machine
end

section
/-! What an operation's actions leave of IRQ_FLAGS and IRQ_MASK where the primitives are plain and no radio step
falls between the actions (20_memory.md R53, R54, R58): said once, over the action list `emitted` names. -/

namespace Sys2Proof.Machine
open Sys2Proof

/-! ### Each action uses up one radio step -/

@[simp] theorem radioStep_raises (s : State) : s.radioStep.radio.raises = s.radio.raises.tail := by
  unfold State.radioStep; split <;> simp [*]

@[simp] theorem emit_raises (s : State) (a : Action) : (s.emit a).radio.raises = s.radio.raises.tail := by
  rw [State.emit, react_raises, record_radio, radioStep_raises]

@[simp] theorem takeStatus_raises (s : State) (q : StatusReg) :
    (s.takeStatus q).radio.raises = s.radio.raises := by
  unfold State.takeStatus
  split
  · exact setPending_raises _ _ _
  · rfl

@[simp] theorem readStatus_raises (s : State) (q : StatusReg) :
    (s.readStatus q).radio.raises = s.radio.raises.tail := by simp [State.readStatus]

@[simp] theorem clearMaskFlags_raises (s : State) (set : Byte) :
    (s.clearMaskFlags set).radio.raises = s.radio.raises.tail.tail := by simp [State.clearMaskFlags]

@[simp] theorem rescan_raises (s : State) : s.rescan.radio.raises = s.radio.raises.tail := by
  simp [State.rescan]

@[simp] theorem resume_raises (s : State) : s.resume.radio.raises = s.radio.raises.tail := by
  unfold State.resume; split <;> simp

@[simp] theorem takePacket_raises (s : State) : s.takePacket.radio.raises = s.radio.raises := rfl

@[simp] theorem rxRead_raises (s : State) : s.rxRead.radio.raises = s.radio.raises.tail.tail := by
  simp [State.rxRead, State.readPacket, State.rxStaged, State.rxStage]

@[simp] theorem hopPrep_raises {s : State} (h : s.radio.raises = []) : s.hopPrep.radio.raises = [] := by
  rw [hopPrep_radio h, h]

@[simp] theorem deliver_raises (s : State) : s.deliver.radio.raises = s.radio.raises.tail := by
  simp [State.deliver]

@[simp] theorem deliverPacket_raises (s : State) (n : Nat) :
    (s.deliverPacket n).radio.raises = s.radio.raises.tail.tail.tail.tail.tail := by
  simp [State.deliverPacket]

/-! ### The two interrupt registers across an action list -/

/-- IRQ_FLAGS and IRQ_MASK. -/
def State.interrupts (s : State) : Byte × Byte := (s.radio.flags, s.radio.mask)

/-- IRQ_FLAGS and IRQ_MASK after one action: CLR_MASK and CLR_FLAGS alone change them. -/
def onInterrupts (p : Byte × Byte) : Action → Byte × Byte
  | .clrMask => (p.1, 0)
  | .clrFlags set => (p.1 &&& ~~~set, p.2)
  | .rd _ _ | .readPacket _ _ | .setDio _ | .opmodeCad | .setRate _ _ | .startRxSingle | .startRxCont
  | .startTx _ | .armScan _ _ | .deliver _ _ | .log _ | .yield => p

/-- IRQ_FLAGS and IRQ_MASK after an action list. `exec_interrupts` ties it to `exec`. -/
def interruptsAfter (p : Byte × Byte) (l : List Action) : Byte × Byte := l.foldl onInterrupts p

@[simp] theorem interruptsAfter_nil (p : Byte × Byte) : interruptsAfter p [] = p := rfl
@[simp] theorem interruptsAfter_cons (p : Byte × Byte) (a : Action) (l : List Action) :
    interruptsAfter p (a :: l) = interruptsAfter (onInterrupts p a) l := rfl
@[simp] theorem interruptsAfter_append (p : Byte × Byte) (l m : List Action) :
    interruptsAfter p (l ++ m) = interruptsAfter (interruptsAfter p l) m := List.foldl_append

@[simp] theorem interruptsAfter_hopPrepLogs (p : Byte × Byte) (b : Block) :
    interruptsAfter p (hopPrepLogs b) = p := by
  unfold hopPrepLogs; split <;> split <;> rfl

@[simp] theorem onInterrupts_resumeAction (p : Byte × Byte) (b : Block) :
    onInterrupts p (resumeAction b) = p := by
  unfold resumeAction; split <;> rfl

/-- No action list raises a flag. -/
theorem flag_of_interruptsAfter {k : Nat} (l : List Action) : ∀ {p : Byte × Byte},
    (interruptsAfter p l).1.getLsbD k = true → p.1.getLsbD k = true := by
  induction l with
  | nil => exact id
  | cons a l ih =>
    intro p h
    have ha : (onInterrupts p a).1.getLsbD k = true := ih h
    cases a with
    | clrFlags set =>
      rw [onInterrupts, BitVec.getLsbD_and, Bool.and_eq_true] at ha
      exact ha.1
    | _ => exact ha

@[simp] theorem modBlock_interrupts (s : State) (f : Block → Block) :
    (s.modBlock f).interrupts = s.interrupts := rfl
@[simp] theorem takePacket_interrupts (s : State) : s.takePacket.interrupts = s.interrupts := rfl
@[simp] theorem takeParser_interrupts (s : State) : s.takeParser.interrupts = s.interrupts := by
  rw [State.interrupts, takeParser_radio]; rfl
@[simp] theorem takeStatus_interrupts (s : State) (q : StatusReg) :
    (s.takeStatus q).interrupts = s.interrupts := by
  unfold State.takeStatus
  split
  · cases q <;> rfl
  · rfl

/-- The rule of one action: a plain primitive leaves both registers, and so does a record to another agent. -/
@[simp] theorem emit_interrupts {s : State} (hc : s.params.clears = {}) (hm : s.params.driverMask = .unchanged)
    (hr : s.radio.raises = []) (a : Action) : (s.emit a).interrupts = onInterrupts s.interrupts a := by
  have keeps (h : (s.emit a).radio = s.radio) : (s.emit a).interrupts = s.interrupts := by
    rw [State.interrupts, h]; rfl
  cases a with
  | clrMask => exact Prod.ext (emit_clrMask_flags hr) (emit_clrMask_mask s)
  | clrFlags set => exact Prod.ext (emit_clrFlags_still hr set) (emit_clrFlags_mask s set)
  | rd r v => exact keeps (emit_rd_radio hr r v)
  | log c => exact keeps (emit_log_radio hr c)
  | yield => exact keeps (emit_yield_radio hr)
  | deliver r k => exact keeps (emit_deliver_radio hr r k)
  | readPacket | setDio | opmodeCad | setRate | startRxSingle | startRxCont | startTx | armScan =>
    exact keeps (emit_primitive_radio ⟨hc, hm⟩ hr rfl)

@[simp] theorem hopPrep_interrupts {s : State} (hr : s.radio.raises = []) :
    s.hopPrep.interrupts = s.interrupts := by
  rw [State.interrupts, hopPrep_radio hr]; rfl

section Shared
variable {s : State} (hc : s.params.clears = {}) (hm : s.params.driverMask = .unchanged)
  (hr : s.radio.raises = [])
include hc hm hr

@[simp] theorem readStatus_interrupts (q : StatusReg) : (s.readStatus q).interrupts = s.interrupts := by
  simp [State.readStatus, hc, hm, hr, onInterrupts]

@[simp] theorem clearMaskFlags_interrupts (set : Byte) :
    (s.clearMaskFlags set).interrupts = (s.interrupts.1 &&& ~~~set, 0) := by
  simp [State.clearMaskFlags, hc, hm, hr, onInterrupts]

@[simp] theorem rescan_interrupts : s.rescan.interrupts = s.interrupts := by
  simp [State.rescan, hc, hm, hr, onInterrupts]

@[simp] theorem resume_interrupts : s.resume.interrupts = s.interrupts := by
  unfold State.resume; split <;> simp [hc, hm, hr, onInterrupts]

@[simp] theorem hopAction_interrupts : s.hopAction.interrupts = s.interrupts := by
  rw [State.interrupts, hopAction_radio ⟨hc, hm⟩ hr]; rfl

@[simp] theorem detectToRx_interrupts : s.detectToRx.interrupts = (0, s.interrupts.2) := by
  obtain ⟨hflags, hmask⟩ := detectToRx_radio ⟨hc, hm⟩ hr
  exact Prod.ext hflags hmask

@[simp] theorem rxRead_interrupts : s.rxRead.interrupts = s.interrupts := by
  simp [State.rxRead, State.readPacket, State.rxStaged, State.rxStage, hc, hm, hr, onInterrupts]

@[simp] theorem deliverPacket_interrupts (n : Nat) : (s.deliverPacket n).interrupts = s.interrupts := by
  simp [State.deliverPacket, State.deliver, hc, hm, hr, onInterrupts]

end Shared

/-! ### Every operation -/

/-- With plain primitives and no radio step between the actions, an operation leaves IRQ_FLAGS and IRQ_MASK as
the CLR_FLAGS and CLR_MASK among its actions do (20_memory.md R53, R54). -/
theorem exec_interrupts {i : Instr} {s t : State} (hp : s.params.plainRadio) (hr : s.radioStill)
    (h : exec i s = .next t) : t.interrupts = interruptsAfter s.interrupts (emitted s i) := by
  obtain ⟨hc, hm⟩ := hp
  cases i with
  | hopDoneTo | hopEventTo | hopIdle | init | scanDet | cadDet | scanDone | scanIdle | scanUnk | cadWrap
  | cadIdle | cadUnk | rxHdr | rxIdle | rxUnk | txdoneUnk =>
    cases h; simp [emitted, onInterrupts, hc, hm, hr]
  | cadStep =>
    cases h
    by_cases hd : s.params.cadStepClear = 0#8 <;> simp [emitted, onInterrupts, hc, hm, hr, hd]
  | rxReadfail | rxOk =>
    simp only [exec, execRxReadfail, execRxOk] at h
    split at h <;> cases h
    simp [emitted, onInterrupts, hc, hm, hr]
  | rxCrcerr | rxTimeout | txdoneOk | badState =>
    cases h
    by_cases hd : hopOrCad s.block <;> simp [emitted, resumeAction, onInterrupts, hc, hm, hr, hd]
  | tx d => cases h; by_cases hd : d.active = 0#8 <;> simp [emitted, onInterrupts, hc, hm, hr, hd]
  | txdoneWait =>
    cases h
    by_cases hd : s.params.txDeadline < elapsed s.now s.block.sendTime <;>
      simp [emitted, onInterrupts, hc, hm, hr, hd]
  | hRead | hCfgWrite | hOutWrite | hOutPayloadWrite | hTxRequest | reset =>
    rw [exec_host_frame rfl h]; rfl

/-- The operations that emit no CLR_FLAGS and no CLR_MASK (60_exceptions.md R236). -/
theorem interruptsAfter_emitted_of_waits {i : Instr} {d : Dw} (s : State) (p : Byte × Byte)
    (hi : i = .scanIdle d ∨ i = .cadIdle d ∨ i = .rxHdr d ∨ i = .rxIdle d ∨ i = .rxUnk d ∨
      i = .txdoneWait d ∨ i = .hopDoneTo d ∨ i = .hopEventTo d ∨ i = .hopIdle d) :
    interruptsAfter p (emitted s i) = p := by
  rcases hi with rfl | rfl | rfl | rfl | rfl | rfl | rfl | rfl | rfl <;>
    simp [emitted, onInterrupts, apply_ite (interruptsAfter p)]

/-- Settles O58: an operation's actions leave of the flags and the mask what the clears among them leave. -/
theorem operationsNeverRaiseFlags : Obligations.OperationsNeverRaiseFlags := by
  intro i s t hp hr h
  have hint := exec_interrupts hp hr h
  refine ⟨fun k hk => ?_, fun d hi => ?_⟩
  · have hk' : (interruptsAfter s.interrupts (emitted s i)).1.getLsbD k = true := hint ▸ hk
    exact flag_of_interruptsAfter _ hk'
  · rw [interruptsAfter_emitted_of_waits s _ hi] at hint
    exact Prod.ext_iff.1 hint

end Sys2Proof.Machine
end

section
/-! The opcode map read state by state: what a packed dispatch word selects (30_encoding.md R82 to R84). -/

namespace Sys2Proof.Machine
open Sys2Proof

theorem state_code_cases (st : BitVec 3) :
    st = 0 ∨ st = 1 ∨ st = 2 ∨ st = 3 ∨ st = 4 ∨ st = 5 ∨ st = 6 ∨ st = 7 := by
  revert st; decide

/-- The first row of the opcode map that accepts a packed word is the one R84 names for its state: the rows
below HS test one state each, and in it the cause bits in order. -/
theorem decodeDw_word (d : Dw) : decodeDw d.word = .ok (rowByState d) := by
  unfold decodeDw rowByState
  rw [if_neg (by simp [Dw.word_reserved])]
  simp only [dwRows, Row.accepts, Dw.ofWord_word, List.find?_cons, bne, beq_eq_decide, rowTest_hop, rowTest_init,
    rowTest_scanDet, rowTest_scanDone, rowTest_scanIdle, rowTest_scanUnk, rowTest_cadDet, rowTest_cadDone,
    rowTest_cadIdle, rowTest_cadUnk, rowTest_rxDone, rowTest_rxTimeout, rowTest_rxHdr, rowTest_rxIdle,
    rowTest_rxUnk, rowTest_tx, rowTest_txdoneOk, rowTest_txdoneWait, rowTest_txdoneUnk, rowTest_badState]
  by_cases hs : d.hs = true
  · simp [hs]
  rcases state_code_cases d.state with h | h | h | h | h | h | h | h
  · simp [hs, h]
  · by_cases detected : d.active[0] = true
    · simp [hs, h, detected]
    by_cases done : d.active[2] = true
    · simp [hs, h, detected, done]
    by_cases idle : d.active = 0#8 <;> simp [hs, h, detected, done, idle]
  · by_cases detected : d.active[0] = true
    · simp [hs, h, detected]
    by_cases done : d.active[2] = true
    · by_cases below : d.sf.toNat < 12
      · simp [hs, h, detected, done, below]
      · simp [hs, h, detected, done, below, Nat.not_lt.1 below]
    by_cases idle : d.active = 0#8 <;> simp [hs, h, detected, done, idle]
  · by_cases done : d.active[6] = true
    · simp [hs, h, done]
    by_cases timeout : d.active[7] = true
    · simp [hs, h, done, timeout]
    by_cases header : d.active = 16#8
    · simp [hs, h, header]
    by_cases idle : d.active = 0#8 <;> simp [hs, h, done, timeout, header, idle]
  · simp [hs, h]
  · by_cases done : d.active[3] = true
    · simp [hs, h, done]
    by_cases idle : d.active = 0#8 <;> simp [hs, h, done, idle]
  · simp [hs, h]
  · simp [hs, h]

theorem decodeDw_scanDet {d : Dw} (h : d.word &&& 0x02701 = 0x00101) :
    decodeDw d.word = .ok (.row (.scanDet d)) := by
  obtain ⟨hs, hst, ha⟩ := (rowTest_scanDet d).1 h
  rw [decodeDw_word]
  simp [rowByState, hs, hst, ha]

theorem decodeDw_cadDet {d : Dw} (h : d.word &&& 0x02701 = 0x00201) :
    decodeDw d.word = .ok (.row (.cadDet d)) := by
  obtain ⟨hs, hst, ha⟩ := (rowTest_cadDet d).1 h
  rw [decodeDw_word]
  simp [rowByState, hs, hst, ha]

end Sys2Proof.Machine
end

section
/-! What the prologue emits, what an operation of an invocation leaves alone outside the block and the transceiver,
and from both: the detection, the three receive-done operations, and which agent writes what. -/

namespace Sys2Proof.Machine
open Sys2Proof

/-! ### The prologue -/

theorem actions_emit_if (c : Prop) [Decidable c] (s : State) (a : Action) :
    (if c then s.emit a else s).actions = s.actions ++ if c then [a] else [] := by
  split <;> simp

theorem actions_emit_unless (c : Prop) [Decidable c] (s : State) (a : Action) :
    (if c then s else s.emit a).actions = s.actions ++ if c then [] else [a] := by
  split <;> simp

/-- The condition of YIELD (40_classifier.md R106, R107). -/
theorem yields_iff (hopEn : Bool) (active : Byte) (st : BitVec 3) :
    (hopEn && active == 0 && !scanOrCad st) = true ↔
      hopEn = true ∧ active = 0 ∧ st ≠ stScan ∧ st ≠ stCad := by
  simp [scanOrCad, and_assoc]

/-- The prologue's action list (40_classifier.md R102, R105, R107). -/
theorem prologue_actions (s : State) : s.prologue.actions =
    [.rd .irqFlags s.invocationFlags, .rd .irqMask s.invocationMask] ++
    (if s.invocationActive = s.invocationFlags then [] else [.log .masked]) ++
    (if s.block.hopEn = true ∧ s.invocationActive = 0 ∧ s.block.state ≠ stScan ∧ s.block.state ≠ stCad
      then [.yield] else []) := by
  have hreads : s.invocationStart.afterReads.actions =
      [.rd .irqFlags s.invocationFlags, .rd .irqMask s.invocationMask] := afterReads_actions _
  simp only [State.prologue, actions_emit_if, actions_emit_unless, hreads, yields_iff]

/-- With no radio step before the two reads they latch the registers as they stand. -/
theorem invocationFlags_still {s : State} (h : s.radioStill) : s.invocationFlags = s.radio.flags := by
  rw [State.invocationFlags, State.latchedFlags, radioStep_still (s := s.invocationStart) h]; rfl

/-- A radio step raises flags and leaves the mask (20_memory.md R53). -/
theorem invocationMask_eq (s : State) : s.invocationMask = s.radio.mask := by
  rw [State.invocationMask, State.latchedMask, radioStep_mask, emit_rd_mask]; rfl

/-- Settles O7: the list of the prologue, and what its reads latch. -/
theorem prologueReadsLogsAndYields : Obligations.PrologueReadsLogsAndYields := fun s =>
  ⟨prologue_block s, prologue_actions s,
    fun h => ⟨invocationFlags_still h, invocationMask_eq s, prologue_radio h⟩,
    prologue_now s, prologue_parser s, prologue_script s, prologue_params s⟩

/-! ### What an operation of an invocation leaves alone -/

/-- An operation of an invocation leaves the stimulus to come and the host's reply, and only RX_OK takes an
answer of the parser (43_rx.md R175). -/
theorem exec_invocation_frame {i : Instr} {d : Dw} (hi : i.dw? = some d) {s t : State} (h : exec i s = .next t) :
    t.script = s.script ∧ t.reply = s.reply ∧ (i.delivers = false → t.parser = s.parser) := by
  cases i with
  | hopDoneTo | hopEventTo | hopIdle | init | scanDet | cadDet | scanDone | scanIdle | scanUnk | cadWrap
  | cadIdle | cadUnk | rxHdr | rxIdle | rxUnk | txdoneUnk | rxCrcerr | badState | txdoneOk => cases h; simp
  | cadStep => cases h; by_cases hc : s.params.cadStepClear = 0#8 <;> simp [hc]
  | rxReadfail | rxOk =>
    simp only [exec, execRxReadfail, execRxOk] at h
    split at h <;> cases h
    simp [Instr.delivers]
  | rxTimeout => cases h; by_cases hc : hopOrCad s.block <;> simp [hc]
  | tx d => cases h; by_cases hd : d.active = 0#8 <;> simp [hd]
  | txdoneWait => cases h; by_cases hd : s.params.txDeadline < elapsed s.now s.block.sendTime <;> simp [hd]
  | hRead | hCfgWrite | hOutWrite | hOutPayloadWrite | hTxRequest | reset => cases hi

theorem exec_sameElsewhere {i : Instr} {d : Dw} (hi : i.dw? = some d) (hd : i.delivers = false) {s t : State}
    (h : exec i s = .next t) : s.sameElsewhere t := by
  obtain ⟨hscript, hreply, hparser⟩ := exec_invocation_frame hi h
  obtain ⟨hnow, hparams⟩ := exec_now_params h
  exact ⟨hnow, hparser hd, hscript, hreply, hparams⟩

/-! ### Detection -/

theorem detectToRx_sameElsewhere (s : State) : s.sameElsewhere s.detectToRx :=
  ⟨detectToRx_now s, detectToRx_parser s, detectToRx_script s, detectToRx_reply s, detectToRx_params s⟩

/-- Settles O16: both operations are DETECT_TO_RX (R138, R143). -/
theorem detectionStartsASingleReceive : Obligations.DetectionStartsASingleReceive := by
  refine ⟨fun d => ⟨decodeDw_scanDet, decodeDw_cadDet⟩, fun d s i hi => ?_⟩
  have hexec : exec i s = .next s.detectToRx := by rcases hi with rfl | rfl <;> rfl
  exact ⟨s.detectToRx, detectRssi s, hexec, fun _ _ h => detectRssi_of_pending h, detectToRx_block s,
    detectToRx_actions s, detectToRx_sameElsewhere s, detectToRx_radio⟩

/-! ### Receive-done -/

/-- RX_CRCERR clears the receive flags and the mask (43_rx.md R164). -/
theorem exec_rxCrcerr_radio {d : Dw} {s t : State} (hp : s.params.plainRadio) (hr : s.radioStill)
    (h : exec (.rxCrcerr d) s = .next t) : t.radio.flags = s.radio.flags &&& 0x0F ∧ t.radio.mask = 0 := by
  have hint := exec_interrupts hp hr h
  simp only [emitted, interruptsAfter_cons, interruptsAfter_nil, onInterrupts_resumeAction] at hint
  exact Prod.ext_iff.1 hint

/-- Settles O24: the row of RX_CRCERR in the tables of actions and of writes. -/
theorem crcErrorResumesWithoutReading : Obligations.CrcErrorResumesWithoutReading := by
  intro d s
  obtain ⟨t, h⟩ : ∃ t, exec (.rxCrcerr d) s = .next t := ⟨_, rfl⟩
  exact ⟨t, s.statusValue .crcOn, h, fun _ _ => statusValue_of_pending (q := .crcOn),
    (exec_invocation rfl h).1, (exec_appends h).1, exec_sameElsewhere rfl rfl h,
    fun hp hr => exec_rxCrcerr_radio hp hr h⟩

/-- A byte at or above the capacity reads as before the packet read (20_memory.md R45). -/
theorem memRead_rxBuffer_above {s : State} (h : Memory.wfBelow s.params.inCap s.block.inBuf)
    (hn : s.rxOverlen = false) {j : Nat} (hj : s.params.inCap ≤ j) :
    memRead (rxBuffer s) j = memRead s.block.inBuf j := by
  rw [memRead_above (rxBuffer_wfBelow h hn) hj, memRead_above h hj]

theorem exec_rxReadfail_mask {d : Dw} {s t : State} (h : exec (.rxReadfail d) s = .next t) :
    t.radio.mask = 0 := by
  simp only [exec, execRxReadfail] at h
  split at h <;> cases h
  exact emit_clrMask_mask _

/-- RX_READFAIL clears no flag (43_rx.md R165). -/
theorem exec_rxReadfail_flags {d : Dw} {s t : State} (hp : s.params.plainRadio) (hr : s.radioStill)
    (h : exec (.rxReadfail d) s = .next t) : t.radio.flags = s.radio.flags :=
  congrArg Prod.fst (exec_interrupts hp hr h)

/-- Settles O25: within the contract RX_READFAIL answers, and the tables of actions and of writes give the rest. -/
theorem failedReadGoesToScanWithTheFlagsKept : Obligations.FailedReadGoesToScanWithTheFlagsKept := by
  intro d s hbuf hlen
  have hfits := rxOverlen_eq_false hlen
  obtain ⟨t, h⟩ : ∃ t, exec (.rxReadfail d) s = .next t := by simp [exec, execRxReadfail, hfits]
  have hblock := (exec_invocation rfl h).1
  rw [blockAfter, rxRead_block] at hblock
  exact ⟨t, s.statusValue .crcOn, BitVec.ofInt 16 s.rxLength, s.rxStaged.packetBytes, rxBuffer s, h,
    toInt_ofInt_rxLength s, fun _ _ => statusValue_of_pending (q := .crcOn), hblock,
    fun _ => memRead_rxBuffer_above hbuf hfits, (exec_appends h).1, exec_sameElsewhere rfl rfl h,
    exec_rxReadfail_mask h, fun hp hr => exec_rxReadfail_flags hp hr h⟩

/-- Up to the packet read the receive-done operations take no answer but CRC_ON's and the packet's (43_rx.md
R162). -/
theorem rxRead_pending {q : StatusReg} (hq : .crcOn ≠ q) (s : State) :
    s.rxRead.radio.pending q = s.radio.pending q := by
  rw [State.rxRead, readPacket_pending, State.rxStaged, rxStage_pending, readStatus_pending hq]

/-- A positive length, as the signed number it is answered and as the natural number it is stored as. -/
theorem ofNat_toNat_rxLength {s : State} (hpos : 0 < s.rxLength) :
    BitVec.ofNat 16 s.rxLength.toNat = BitVec.ofInt 16 s.rxLength := by
  rw [← BitVec.ofInt_natCast, Int.toNat_of_nonneg hpos.le]

theorem toNat_ofInt_rxLength {s : State} (hpos : 0 < s.rxLength) :
    (BitVec.ofInt 16 s.rxLength).toNat = s.rxLength.toNat := by
  have hrange := rxLength_range s
  rw [← ofNat_toNat_rxLength hpos, BitVec.toNat_ofNat, Nat.mod_eq_of_lt]
  omega

/-- The payload delivered is the packet read (43_rx.md R168, R174). -/
theorem memPrefix_rxBuffer {s : State} (h : Memory.wfBelow s.params.inCap s.block.inBuf)
    (hpos : 0 < s.rxLength) : memPrefix (rxBuffer s) s.rxLength.toNat = s.rxStaged.packetBytes :=
  List.map_congr_left fun j hj => by
    rw [memRead_rxBuffer h hpos, if_pos (List.mem_range.1 hj)]

/-- The record RX_OK delivers (43_rx.md R174). -/
theorem inboundRecord_okBlock {s : State} (h : Memory.wfBelow s.params.inCap s.block.inBuf)
    (hpos : 0 < s.rxLength) : inboundRecord (okBlock s.rxRead s.rxLength.toNat) =
      ⟨s.rxStaged.packetBytes, BitVec.ofInt 16 s.rxLength, snrDecode s.params.snrRound (okSnr s.rxRead),
        packetRssi s.params s.block.xcvrModel (okRssi s.rxRead), sfField (okSf s.rxRead)⟩ := by
  simp only [inboundRecord, okBlock, rxRead_block, rxRead_params, ofNat_toNat_rxLength hpos,
    toNat_ofInt_rxLength hpos, memPrefix_rxBuffer h hpos]

theorem exec_rxOk_radio {d : Dw} {s t : State} (h : exec (.rxOk d) s = .next t) :
    t.radio.flags = 0 ∧ t.radio.mask = 0 := by
  simp only [exec, execRxOk] at h
  split at h <;> cases h
  exact ⟨clearMaskFlags_all _, clearMaskFlags_mask _ _⟩

/-- Settles O27: within the contract RX_OK answers; what it read is what the five reads give, and IN_BUF and the
record delivered hold the packet's bytes. -/
theorem rxOkCompletesOnDrawnAnswers : Obligations.RxOkCompletesOnDrawnAnswers := by
  intro d s hbuf hpos hlen _
  obtain ⟨t, h⟩ : ∃ t, exec (.rxOk d) s = .next t := by
    simp [exec, execRxOk, rxOverlen_eq_false hlen]
  obtain ⟨hblock, hnow, hparams⟩ := exec_invocation rfl h
  obtain ⟨hscript, hreply, -⟩ := exec_invocation_frame rfl h
  obtain ⟨hflags, hmask⟩ := exec_rxOk_radio h
  have hactions := (exec_appends h).1
  rw [emitted, inboundRecord_okBlock hbuf hpos] at hactions
  simp only [blockAfter, resumedBlock, okBlock, rxRead_block, rxRead_params, ofNat_toNat_rxLength hpos]
    at hblock
  refine ⟨t, BitVec.ofInt 16 s.rxLength, s.rxStaged.packetBytes, okSnr s.rxRead, okRssi s.rxRead,
    okSf s.rxRead, okParser s.rxRead, rxBuffer s, h, toInt_ofInt_rxLength s, rfl, rfl, rfl, rfl, rfl,
    fun _ _ hq => okSnr_of_pending ((rxRead_pending (q := .pktSnr) (by decide) s).trans hq),
    fun _ _ hq => okRssi_of_pending ((rxRead_pending (q := .pktRssi) (by decide) s).trans hq),
    fun _ _ hq => okSf_of_pending ((rxRead_pending (q := .sfCfg) (by decide) s).trans hq),
    fun _ _ hq => okParser_of_pending ((rxRead_parser s).trans hq),
    memRead_rxBuffer hbuf hpos, hblock, ?_, hflags, hmask, hnow, hscript, hreply, hparams⟩
  rw [hblock]
  exact hactions

/-! ### Who writes what -/

/-- A step of the transceiver, the time source, the parser's stub or the log sink writes no block register, no
parameter and no action (45_host.md R205). -/
theorem stimulate_frame (s : State) (x : Stimulus) : (s.stimulate x).block = s.block ∧
    (s.stimulate x).params = s.params ∧ (s.stimulate x).actions = s.actions := by
  cases x <;> exact ⟨rfl, rfl, rfl⟩

/-- The script entries that are no host word, no reset signal and no INVOKE are steps of those agents. -/
theorem runStimulus_of_agent {s : State} {x : Stimulus} (hhost : ∀ w, x ≠ .host w) (hreset : x ≠ .reset)
    (hinvoke : x ≠ .invoke) : s.runStimulus x = .next (s.startStep.stimulate x) := by
  cases x with
  | host w => exact absurd rfl (hhost w)
  | reset => exact absurd rfl hreset
  | invoke => exact absurd rfl hinvoke
  | radio | raiseDuring | setMask | time | answer | answerPkt | answerParser | sink => rfl

/-- A host word's step and the reset signal's write the block, the reply and the count of draws of a step
freshly started, and nothing else (45_host.md R205, 70_reset_and_hazards.md R262). -/
theorem runStimulus_host_frame {s t : State} {x : Stimulus} (hx : (∃ w, x = .host w) ∨ x = .reset)
    (h : s.runStimulus x = .next t) :
    t = { s.startStep with block := t.block, reply := t.reply, draws := t.draws } := by
  rcases hx with ⟨w, rfl⟩ | rfl
  · simp only [State.runStimulus, State.hostStep] at h
    split at h
    · next i hi => exact exec_host_frame (decodeHost_dw? hi) h
    · cases h; rfl
  · exact exec_host_frame (i := .reset) rfl h

theorem runStimulus_params {s t : State} {x : Stimulus} (h : s.runStimulus x = .next t) :
    t.params = s.params := by
  cases x with
  | invoke =>
    simp only [State.runStimulus, State.invoke] at h
    split at h
    · exact (exec_now_params h).2.trans (prologue_params s)
    · cases h
  | host w => rw [runStimulus_host_frame (.inl ⟨w, rfl⟩) h]; rfl
  | reset => rw [runStimulus_host_frame (.inr rfl) h]; rfl
  | radio | raiseDuring | setMask | time | answer | answerPkt | answerParser | sink =>
    cases h; exact (stimulate_frame s.startStep _).2.1

/-- No step changes a parameter (20_memory.md R60). -/
theorem step_params {s t : State} (h : step s = .next t) : t.params = s.params := by
  rcases step_cases s with ⟨x, rest, -, -, hx⟩ | ⟨-, hi⟩ | ⟨-, -, hw⟩
  · rw [hx] at h
    exact runStimulus_params (s := { s with script := rest }) h
  · rw [hi] at h
    exact (runStimulus_params (x := .invoke) h).trans (popped_params s)
  · rw [hw] at h
    cases h
    rfl

/-- Settles O59: a script entry is a step of another agent, a host word or the reset signal, or INVOKE, and each
has its frame. -/
theorem agentsKeepToTheirOwnState : Obligations.AgentsKeepToTheirOwnState := by
  intro s t h
  refine ⟨step_params h, fun x rest hscript => ?_⟩
  rw [step_of_script hscript] at h
  refine ⟨fun hhost hreset hinvoke => ?_, fun hx => ?_⟩
  · rw [runStimulus_of_agent hhost hreset hinvoke] at h
    cases h
    obtain ⟨hblock, -, hactions⟩ := stimulate_frame ({ s with script := rest } : State).startStep x
    exact ⟨hblock, hactions⟩
  · rw [runStimulus_host_frame hx h]
    exact ⟨rfl, rfl, rfl, rfl, rfl⟩

end Sys2Proof.Machine
end

section
/-! What a code selects: the decoding of every well-formed operation's code, and the row an invocation takes, its
group's late guards among it (30_encoding.md R82 to R85, R90). From the row taken: the one fault a step can have
(43_rx.md R169). Last, the host registers over their fields (30_encoding.md R91 to R95). -/

namespace Sys2Proof.Machine
open Sys2Proof

/-! ### Dispatch words -/

/-- A row of format DW20 is encoded as the dispatch word it carries. -/
theorem encode_of_dw? {i : Instr} {d : Dw} (hi : i.dw? = some d) : encode i = .dw d.word := by
  cases i with
  | hRead | hCfgWrite | hOutWrite | hOutPayloadWrite | hTxRequest | reset => cases hi
  | _ => cases hi; rfl

/-- R84 names, for the fields of a well-formed row, that row or its group: the fields decide each of R84's
tests. -/
theorem rowByState_of_wellFormed {i : Instr} {d : Dw} (hi : i.dw? = some d) (h : i.wellFormed = true) :
    rowByState d = i.selected := by
  cases i with
  | hRead | hCfgWrite | hOutWrite | hOutPayloadWrite | hTxRequest | reset => cases hi
  | badState =>
    cases hi
    simp only [Instr.wellFormed, Bool.and_eq_true, Bool.or_eq_true, Bool.not_eq_true', beq_iff_eq] at h
    obtain ⟨hhs, hst | hst⟩ := h <;> simp [rowByState, Instr.selected, hhs, hst]
  | cadWrap =>
    cases hi
    simp only [Instr.wellFormed, Bool.and_eq_true, Bool.not_eq_true', beq_iff_eq, decide_eq_true_eq] at h
    obtain ⟨hfields, hsf⟩ := h
    simp [rowByState, Instr.selected, hfields, Nat.not_lt.2 hsf]
  | _ =>
    cases hi
    simp only [Instr.wellFormed, Bool.and_eq_true, Bool.not_eq_true', beq_iff_eq, bne_iff_ne,
      decide_eq_true_eq, BitVec.ofNat_eq_ofNat] at h
    simp [rowByState, Instr.selected, h]

/-- Settles O2: R84's reading holds of every packed word, the classifier's among them. -/
theorem opcodeMapAgreesWithStateByState : Obligations.OpcodeMapAgreesWithStateByState := fun b a =>
  decodeDw_word (dispatchWord b a)

/-! ### Host words -/

/-- The code of a well-formed host transaction names that transaction (45_host.md R205). -/
theorem decode_encode_host {i : Instr} (hi : i.dw? = none) (h : i.wellFormed = true) :
    decode (encode i) = .ok (.row i) := by
  cases i with
  | hRead reg data =>
    have hread : readableReg reg = true := h
    simp [encode, decode, decodeHost, hread, Except.map]
  | hOutWrite reg data =>
    have hmeta : outMetaReg reg = true := h
    have hne : reg ≠ 0#7 := by rintro rfl; cases hmeta
    simp [encode, decode, decodeHost, hmeta, hne, Except.map]
  | hCfgWrite | hOutPayloadWrite | hTxRequest =>
    simp [encode, decode, decodeHost, outMetaReg, Except.map]
  | reset => rfl
  | _ => cases hi

/-- A host transaction and the reset signal are rows of no group. -/
theorem selected_of_dw?_none {i : Instr} (hi : i.dw? = none) : i.selected = .row i := by
  cases i with
  | hRead | hCfgWrite | hOutWrite | hOutPayloadWrite | hTxRequest | reset => rfl
  | _ => cases hi

/-- Settles O1: a row of format DW20 decodes to what R84 names for its fields, a host row to itself. -/
theorem decodeOfEncodeSelectsTheOperation : Obligations.DecodeOfEncodeSelectsTheOperation := by
  intro i h
  cases hi : i.dw? with
  | some d =>
    calc decode (encode i) = decodeDw d.word := by rw [encode_of_dw? hi, decode]
      _ = .ok (rowByState d) := decodeDw_word d
      _ = .ok i.selected := by rw [rowByState_of_wellFormed hi h]
  | none => rw [decode_encode_host hi h, selected_of_dw?_none hi]

/-- Settles O4: each word's bits are the fields of R80 or R90. -/
theorem writtenWordsDecode : Obligations.WrittenWordsDecode := by
  unfold Obligations.WrittenWordsDecode
  decide

/-! ### The row an invocation takes -/

@[simp] theorem resolve_row (i : Instr) (s : State) : resolve (.row i) s = i := rfl

@[simp] theorem resolve_hopGroup_wellFormed (d : Dw) (s : State) :
    (resolve (.hopGroup d) s).wellFormed = d.hs := by
  simp only [resolve]
  repeat' split
  all_goals rfl

@[simp] theorem resolve_hopGroup_dw? (d : Dw) (s : State) : (resolve (.hopGroup d) s).dw? = some d := by
  simp only [resolve]
  repeat' split
  all_goals rfl

@[simp] theorem resolve_rxDoneGroup_wellFormed (d : Dw) (s : State) :
    (resolve (.rxDoneGroup d) s).wellFormed = (!d.hs && d.state == stRx && d.active[6]) := by
  simp only [resolve]
  repeat' split
  all_goals rfl

@[simp] theorem resolve_rxDoneGroup_dw? (d : Dw) (s : State) :
    (resolve (.rxDoneGroup d) s).dw? = some d := by
  simp only [resolve]
  repeat' split
  all_goals rfl

/-- Whichever row R84 names, and whichever row of a group the late guards then pick, it is well formed and
carries the dispatch word: the tests on the way to a row are that row's fields. -/
theorem resolve_rowByState (d : Dw) (s : State) :
    (resolve (rowByState d) s).wellFormed = true ∧ (resolve (rowByState d) s).dw? = some d := by
  simp only [rowByState, BitVec.ofNat_eq_ofNat]
  split
  case isTrue hop => simp [hop]
  split
  case isTrue init => simp [Instr.wellFormed, Instr.dw?, *]
  split
  case isTrue scan => split_ifs <;> simp [Instr.wellFormed, Instr.dw?, *]
  split
  case isTrue cad => split_ifs <;> simp [Instr.wellFormed, Instr.dw?, Nat.le_of_not_lt, *]
  split
  case isTrue rx =>
    split
    case isTrue done => simp [*]
    split_ifs <;> simp [Instr.wellFormed, Instr.dw?, *]
  split
  case isTrue tx => simp [Instr.wellFormed, Instr.dw?, *]
  split
  case isTrue txDone => split_ifs <;> simp [Instr.wellFormed, Instr.dw?, *]
  case isFalse =>
    have bad : d.state = 6#3 ∨ d.state = 7#3 := by have := state_code_cases d.state; tauto
    simp [Instr.wellFormed, Instr.dw?, *]

/-- An invocation's operation is what R84 names for its dispatch word, resolved after the prologue (R100,
R108). -/
theorem invocationInstr_eq (s : State) :
    s.invocationInstr = .ok (resolve (rowByState s.invocationDw) s.prologue) := by
  unfold State.invocationInstr; rw [decodeDw_word]

/-- Settles O3: R84 names a row or a group for every word, and the late guards always pick a row of a group. -/
theorem everyInvocationSelectsOneOperation : Obligations.EveryInvocationSelectsOneOperation := fun s =>
  ⟨_, invocationInstr_eq s, resolve_rowByState s.invocationDw s.prologue⟩

/-- Settles O48: the reset state's code is Init, whose row no flag and no mask sets aside. -/
theorem resetStateStartsInInit : Obligations.ResetStateStartsInInit :=
  ⟨rfl, rfl, rfl, rfl, rfl, rfl, rfl, rfl, rfl, State.reset.invocationDw, by
    have hstate : State.reset.invocationDw.state = stInit := rfl
    have hstage : State.reset.invocationDw.hs = false := Bool.and_false _
    rw [invocationInstr_eq]
    simp [rowByState, hstate, hstage]⟩

/-! ### The late guards -/

/-- The time since a timer, after the clamp, is the natural difference: a timer ahead of the time counts as 0
(41_hopper.md R119, R120). -/
theorem elapsed_eq_sub (t x : Word) : elapsed t x = t.toNat - x.toNat := by
  unfold elapsed clamp
  split <;> omega

/-- Settles O9: HS names the HOP group, whose guards the prologue leaves as they are. -/
theorem hopGroupTakesTheFirstExpiredBudget : Obligations.HopGroupTakesTheFirstExpiredBudget := by
  intro s hs
  rw [invocationInstr_eq, rowByState, if_pos hs]
  simp [resolve, State.doneExpired, State.eventExpired, elapsed_eq_sub]

/-- In Rx the hop stage does not apply (40_classifier.md R106). -/
theorem invocationDw_hs_of_rx {s : State} (h : s.block.state = stRx) : s.invocationDw.hs = false := by
  simp [State.invocationDw, dispatchWord, hopStage, scanOrCad, h]

/-- A receive-done in Rx is resolved within its group (43_rx.md R162). -/
theorem invocationInstr_rxDone {s : State} (hstate : s.block.state = stRx)
    (hdone : s.invocationActive[6] = true) :
    s.invocationInstr = .ok (resolve (.rxDoneGroup s.invocationDw) s.prologue) := by
  have hhs := invocationDw_hs_of_rx hstate
  have hst : s.invocationDw.state = stRx := hstate
  have hact : s.invocationDw.active[6] = true := hdone
  rw [invocationInstr_eq]
  simp [rowByState, hhs, hst, hact]

theorem invoke_of_invocationInstr {s : State} {i : Instr} (h : s.invocationInstr = .ok i) :
    s.invoke = exec i s.prologue := by
  unfold State.invoke; rw [h]

/-- RX_OK faults where the packet's answer is above the capacity (43_rx.md R169). -/
theorem exec_rxOk_overlen {d : Dw} {s : State} (h : (s.params.inCap : Int) < s.rxLength) :
    exec (.rxOk d) s = .fault .readOverlen :=
  if_pos (decide_eq_true h)

/-- Settles O23: the crc-error bit and CRC_ON's bit 0 first, then the sign of the length; an over-long answer
is RX_OK's, which faults. -/
theorem receiveDoneTakesTheFirstRowThatHolds : Obligations.ReceiveDoneTakesTheFirstRowThatHolds := by
  intro s hstate hdone
  have hsel := invocationInstr_rxDone hstate hdone
  refine ⟨_, _, rfl, rfl, fun v l hv => statusValue_of_pending (by rw [prologue_pending]; exact hv),
    fun p l hp => rxLength_of_pending (by rw [prologue_packets]; exact hp),
    fun hcrc herr => ?_, fun hnocrc => ?_⟩
  · have hguard : (s.invocationDw.active[5] && s.prologue.crcOn) = true := by
      rw [Bool.and_eq_true]; exact ⟨herr, hcrc⟩
    rw [hsel, resolve, if_pos hguard]
  · have hguard : ¬ (s.invocationDw.active[5] && s.prologue.crcOn) = true := by
      rw [Bool.and_eq_true]
      exact fun ⟨herr, hcrc⟩ => hnocrc.elim (ne_true_of_eq_false · hcrc) (ne_true_of_eq_false · herr)
    rw [resolve, if_neg hguard] at hsel
    refine ⟨fun hn => by rw [hsel, if_pos hn], fun hpos _ => by rw [hsel, if_neg (by omega)], fun hover => ?_⟩
    rw [if_neg (by omega)] at hsel
    rw [invoke_of_invocationInstr hsel]
    exact exec_rxOk_overlen (by rw [prologue_params]; exact hover)

/-! ### Faults -/

/-- Every operation answers a next state, but for the two that read a packet, whose one fault is the over-long
answer (43_rx.md R169). -/
theorem exec_next_or_overlen (i : Instr) (s : State) : (∃ t, exec i s = .next t) ∨
    exec i s = .fault .readOverlen ∧ ∃ d, i = .rxReadfail d ∨ i = .rxOk d := by
  cases i with
  | rxReadfail d =>
    simp only [exec, execRxReadfail]
    split
    · exact .inr ⟨rfl, d, .inl rfl⟩
    · exact .inl ⟨_, rfl⟩
  | rxOk d =>
    simp only [exec, execRxOk]
    split
    · exact .inr ⟨rfl, d, .inr rfl⟩
    · exact .inl ⟨_, rfl⟩
  | hRead | hCfgWrite | hOutWrite | hOutPayloadWrite | hTxRequest =>
    left
    simp only [exec, execHRead, execHCfgWrite, execHOutWrite, execHOutPayloadWrite, execHTxRequest]
    repeat' split
    all_goals exact ⟨_, rfl⟩
  | _ => exact .inl ⟨_, rfl⟩

/-- A host transaction and the reset signal read no packet: they always answer a next state. -/
theorem exec_host_next {i : Instr} (hi : i.dw? = none) (s : State) : ∃ t, exec i s = .next t := by
  rcases exec_next_or_overlen i s with h | ⟨-, d, rfl | rfl⟩
  · exact h
  · cases hi
  · cases hi

/-- An invocation answers a next state, or it is in Rx and its packet read faults: the operation it selects is
well formed, and the two that read a packet are rows of Rx. -/
theorem invoke_next_or_overlen (s : State) : (∃ t, s.invoke = .next t) ∨
    s.invoke = .fault .readOverlen ∧ s.block.state = stRx := by
  obtain ⟨i, hsel, hwf, hdw⟩ := everyInvocationSelectsOneOperation s
  rw [invoke_of_invocationInstr hsel]
  have hcode : s.invocationDw.state = s.block.state := rfl
  refine (exec_next_or_overlen i s.prologue).imp id fun ⟨hfault, d, hi⟩ => ⟨hfault, ?_⟩
  have hd : d = s.invocationDw := by rcases hi with rfl | rfl <;> exact Option.some.inj hdw
  have hst : d.state = stRx := by rcases hi with rfl | rfl <;> simp_all [Instr.wellFormed]
  rw [← hcode, ← hd, hst]

/-- A script entry other than INVOKE always answers a next state. -/
theorem runStimulus_next {x : Stimulus} (hx : x ≠ .invoke) (s : State) : ∃ t, s.runStimulus x = .next t := by
  cases x with
  | invoke => exact absurd rfl hx
  | host w =>
    simp only [State.runStimulus, State.hostStep]
    split
    · next i hi => exact exec_host_next (decodeHost_dw? hi) _
    · exact ⟨_, rfl⟩
  | reset => exact exec_host_next (i := .reset) rfl _
  | radio | raiseDuring | setMask | time | answer | answerPkt | answerParser | sink => exact ⟨_, rfl⟩

/-- A step answers a next state, or it is an invocation in Rx whose packet read faults. -/
theorem step_next_or_overlen (s : State) : (∃ t, step s = .next t) ∨
    step s = .fault .readOverlen ∧ s.block.state = stRx := by
  rcases step_cases s with ⟨x, rest, -, hx, hstep⟩ | ⟨-, hstep⟩ | ⟨-, -, hstep⟩
  · rw [hstep]; exact .inl (runStimulus_next hx _)
  · rw [hstep, ← popped_block s]; exact invoke_next_or_overlen s.popped
  · exact .inl ⟨_, hstep⟩

/-- Settles O51: the two outcomes of a step exclude a refusal and every other fault. -/
theorem stepsOnlyFaultOnAnOverlongRead : Obligations.StepsOnlyFaultOnAnOverlongRead := by
  intro s
  rcases step_next_or_overlen s with ⟨t, h⟩ | ⟨h, hst⟩
  · rw [h]; exact ⟨nofun, nofun⟩
  · rw [h]; exact ⟨nofun, fun f hf => ⟨(Host.Outcome.fault.inj hf).symm, hst⟩⟩

/-! ### The host registers -/

/-- CTRL bit by bit (30_encoding.md R92). -/
theorem ctrlWord_getLsbD (b : Block) (k : Nat) : (ctrlWord b).getLsbD k =
    ((k = 0 ∧ b.hopEn = true) ∨ (k = 1 ∧ b.cadEn = true) ∨ (k = 2 ∧ b.xcvrModel = true) : Bool) := by
  rw [ctrlWord, BitVec.getLsbD_setWidth]
  simp only [BitVec.getLsbD_append]
  match k with
  | 0 => simp
  | 1 => simp
  | 2 => simp
  | k + 3 => simp

/-- OUT_FLAGS bit by bit (30_encoding.md R95). -/
theorem outFlagsWord_getLsbD (b : Block) (k : Nat) : (outFlagsWord b).getLsbD k =
    ((k = 0 ∧ b.outCrc = true) ∨ (k = 1 ∧ b.outIq = true) : Bool) := by
  rw [outFlagsWord, BitVec.getLsbD_setWidth]
  simp only [BitVec.getLsbD_append]
  match k with
  | 0 => simp
  | 1 => simp
  | k + 2 => simp

/-- Fields packed side by side as a sum, which `omega` can compute with. -/
theorem toNat_append_eq_mul_add {n m : Nat} (x : BitVec n) (y : BitVec m) :
    (x ++ y).toNat = x.toNat * 2 ^ m + y.toNat := by
  rw [BitVec.toNat_append, ← Nat.shiftLeft_add_eq_or_of_lt y.isLt, Nat.shiftLeft_eq]

/-- STATUS as a number (30_encoding.md R93). -/
theorem statusWord_toNat (b : Block) :
    (statusWord b).toNat = b.state.toNat + 8 * b.softEvent.toNat + 16 * b.sf.toNat := by
  rw [statusWord, BitVec.toNat_setWidth_of_le (by decide), toNat_append_eq_mul_add, toNat_append_eq_mul_add,
    BitVec.toNat_ofBool]
  omega

/-- Settles O40: each register's word is its field or its packed fields, zero-extended. -/
theorem hostRegistersHoldTheirFields : Obligations.HostRegistersHoldTheirFields := fun b =>
  have extended {w : Nat} (h : w ≤ 32) (x : BitVec w) : (x.zeroExtend 32).toNat = x.toNat :=
    BitVec.toNat_setWidth_of_le h
  ⟨ctrlWord_getLsbD b, statusWord_toNat b, outFlagsWord_getLsbD b, extended (by decide) b.channel, rfl, rfl, rfl,
    rfl, rfl, extended (by decide) b.detRssi, extended (by decide) b.inLen, extended (by decide) b.inSnr,
    extended (by decide) b.inRssi, extended (by decide) b.inSf, extended (by decide) b.outLen, rfl,
    extended (by decide) b.outSf, extended (by decide) b.outPower, rfl⟩

end Sys2Proof.Machine
end

section
/-! When the next step is an invocation and what it then runs (40_classifier.md R100, R108; 45_host.md R214 to
R218), and the active set bit by bit (40_classifier.md R103). -/

namespace Sys2Proof.Machine
open Sys2Proof

/-! ### The active set -/

/-- A cause is active where its flag is set and its mask bit is clear (40_classifier.md R103). -/
theorem activeSet_getLsbD (flags mask : Byte) (k : Nat) :
    (activeSet flags mask).getLsbD k = (flags.getLsbD k && !mask.getLsbD k) := by
  rw [activeSet, BitVec.getLsbD_and, BitVec.getLsbD_not]
  by_cases hk : k < 8
  · simp [hk]
  · simp [BitVec.getLsbD_of_ge flags k (Nat.le_of_not_lt hk)]

theorem activeSet_full_mask (flags : Byte) : activeSet flags 0xFF = 0 := by
  have hnot : ~~~(0xFF : Byte) = 0 := rfl
  rw [activeSet, hnot]; exact BitVec.and_zero

theorem activeSet_clear_flags (mask : Byte) : activeSet 0 mask = 0 := BitVec.zero_and

theorem activeSet_clear_mask (flags : Byte) : activeSet flags 0 = flags := by
  have hnot : ~~~(0 : Byte) = BitVec.allOnes 8 := rfl
  rw [activeSet, hnot]; exact BitVec.and_allOnes

/-- Settles O8: the four laws of the active set. -/
theorem activeIsSetAndUnmasked : Obligations.ActiveIsSetAndUnmasked := fun flags mask =>
  ⟨activeSet_getLsbD flags mask, activeSet_full_mask flags, activeSet_clear_flags mask,
    activeSet_clear_mask flags⟩

/-! ### The invoker -/

/-- The three triggers of R215: the interrupt line (R216), the marker (R217) and hop polling (R218). -/
theorem trigger_iff (s : State) : s.trigger = true ↔
    s.radio.flags &&& ~~~s.radio.mask ≠ 0 ∨ s.block.softEvent = true ∨ s.block.hopEn = true := by
  simp only [State.trigger, State.irqLine, activeSet, Bool.or_eq_true, bne_iff_ne, or_assoc]

theorem invokesNext_of_script {s : State} {rest : List Stimulus} (h : s.script = .invoke :: rest) :
    s.invokesNext := by
  unfold State.invokesNext State.nextStimulus; rw [h]

/-- With no stimulus left the invoker waits only where no trigger holds (45_host.md R215). -/
theorem invokesNext_of_trigger {s : State} (hscript : s.script = []) (htrigger : s.trigger = true) :
    s.invokesNext :=
  (invokesNext_or_waits hscript).resolve_right fun ⟨hno, _⟩ => ne_true_of_eq_false hno htrigger

/-- An invocation that selects `i` is `i` after the prologue (40_classifier.md R100, R108). -/
theorem step_of_invocationInstr {s : State} {i : Instr} (hnext : s.invokesNext)
    (hsel : s.popped.invocationInstr = .ok i) : step s = exec i s.popped.prologue := by
  rw [step_of_invokesNext hnext, invoke_of_invocationInstr hsel]

/-- Settles O5: INVOKE and the triggers make the step an invocation; otherwise the invoker may wait. -/
theorem stepRunsTheSelectedOperation : Obligations.StepRunsTheSelectedOperation := fun s =>
  ⟨fun _ hnext hsel => step_of_invocationInstr hnext hsel,
    fun _ hscript => invokesNext_of_script hscript,
    fun hscript htrigger => invokesNext_of_trigger hscript ((trigger_iff s).2 htrigger),
    fun hscript _ _ _ => (invokesNext_or_waits hscript).imp_right And.right⟩

end Sys2Proof.Machine
end

section
/-! The hop group (41_hopper.md R115 to R130): the budgets and the clamp as numbers, what the three operations do,
and when an invocation hops. -/

namespace Sys2Proof.Machine
open Sys2Proof

/-! ### The budgets -/

/-- EventWait, state code by state code (41_hopper.md R115). -/
theorem eventWait_of_code (p : Params) :
    eventWait p 0 = 0 ∧ eventWait p 1 = p.eventUnit ∧ eventWait p 2 = p.eventUnit ∧
    eventWait p 3 = 8 * p.eventUnit ∧ eventWait p 4 = p.eventUnit ∧ eventWait p 5 = 4 * p.eventUnit ∧
    eventWait p 6 = 0 ∧ eventWait p 7 = 0 :=
  have one : 1 * p.eventUnit = p.eventUnit := Nat.one_mul _
  ⟨rfl, one, one, rfl, one, rfl, rfl, rfl⟩

theorem sfRecognized_iff (sf : BitVec 4) : sfRecognized sf = true ↔ 7 ≤ sf.toNat ∧ sf.toNat ≤ 12 := by
  simp [sfRecognized]

theorem eventWaitUnknown_iff (st : BitVec 3) : eventWaitUnknown st = true ↔ 6 ≤ st.toNat := by
  simp [eventWaitUnknown]

/-- The budget of a recognized SF (41_hopper.md R117). -/
theorem doneWait_of_recognized (p : Params) {sf : BitVec 4} (hlo : 7 ≤ sf.toNat) (hhi : sf.toNat ≤ 12) :
    doneWait p sf = p.doneBase * 2 ^ (sf.toNat - 7) :=
  if_pos ((sfRecognized_iff sf).2 ⟨hlo, hhi⟩)

/-- The 1x budget of an unrecognized SF (41_hopper.md R118). -/
theorem doneWait_of_unrecognized (p : Params) {sf : BitVec 4} (h : sf.toNat < 7 ∨ 12 < sf.toNat) :
    doneWait p sf = p.doneBase :=
  if_neg fun hr => by obtain ⟨hlo, hhi⟩ := (sfRecognized_iff sf).1 hr; omega

/-- One SF step doubles the budget: the exponent grows by one. -/
theorem doneWait_add_one (p : Params) {sf : BitVec 4} (hlo : 7 ≤ sf.toNat) (hlt : sf.toNat < 12) :
    doneWait p (sf + 1) = 2 * doneWait p sf := by
  have hnext : (sf + 1).toNat = sf.toNat + 1 := by bv_omega
  have hexp : sf.toNat + 1 - 7 = (sf.toNat - 7) + 1 := by omega
  rw [doneWait_of_recognized p hlo hlt.le,
    doneWait_of_recognized p (sf := sf + 1) (by omega) (by omega), hnext, hexp, pow_succ]
  ring

/-- Settles O13: the event budgets by state code, the done budget at SF 7, its doubling, and the 1x default. -/
theorem budgetsOfStateAndSpreadingFactor : Obligations.BudgetsOfStateAndSpreadingFactor := fun p => by
  obtain ⟨h0, h1, h2, h3, h4, h5, h6, h7⟩ := eventWait_of_code p
  exact ⟨h0, h1, h2, h3, h4, h5, h6, h7, Nat.mul_one p.doneBase, fun _ hlo hlt => doneWait_add_one p hlo hlt,
    fun _ hsf => doneWait_of_unrecognized p hsf⟩

/-! ### The clamp -/

/-- A timer that is not ahead of the time stays (41_hopper.md R119). -/
theorem clamp_of_le {t x : Word} (h : x.toNat ≤ t.toNat) : clamp t x = x := if_neg (Nat.not_lt.2 h)

/-- A timer ahead of the time becomes the time (41_hopper.md R119). -/
theorem clamp_of_lt {t x : Word} (h : t.toNat < x.toNat) : clamp t x = t := if_pos h

theorem clamp_toNat_le (t x : Word) : (clamp t x).toNat ≤ t.toNat := by
  rcases Nat.lt_or_ge t.toNat x.toNat with h | h
  · rw [clamp_of_lt h]
  · rw [clamp_of_le h]; exact h

/-- Settles O14: the elapsed time is the natural difference, and the clamp has its two cases. -/
theorem elapsedIsNeverNegativeNorHuge : Obligations.ElapsedIsNeverNegativeNorHuge := fun t x =>
  ⟨Nat.sub_le _ _, clamp_toNat_le t x,
    fun h => ⟨clamp_of_le h, by rw [elapsed_eq_sub]; exact Nat.sub_add_cancel h⟩,
    fun h => ⟨clamp_of_lt h, by rw [elapsed_eq_sub]; exact Nat.sub_eq_zero_of_le h.le⟩⟩

/-! ### The three operations -/

/-- What the group logs, by state code and SF number (41_hopper.md R115, R118). -/
theorem hopPrepLogs_eq (b : Block) : hopPrepLogs b =
    (if 6 ≤ b.state.toNat then [.log .eventWaitUnknown] else []) ++
    (if 7 ≤ b.sf.toNat ∧ b.sf.toNat ≤ 12 then [] else [.log .sfUnknown]) := by
  simp only [hopPrepLogs, eventWaitUnknown_iff, sfRecognized_iff]

/-- Both timeout rows run what comes before the late guards and then HOP_ACTION (41_hopper.md R123, R124). -/
theorem exec_hop {i : Instr} {d : Dw} (hi : i = .hopDoneTo d ∨ i = .hopEventTo d) (s : State) :
    exec i s = .next s.hopPrep.hopAction := by
  rcases hi with rfl | rfl <;> rfl

/-- Settles O10: HOP_ACTION on the clamped timers, which it overwrites. -/
theorem hopTimeoutsHopToTheNextChannel : Obligations.HopTimeoutsHopToTheNextChannel := by
  intro d s i hi
  refine ⟨_, exec_hop hi s, ?_, ?_, ?_⟩
  · rw [hopAction_block, hopPrep_block, hopPrep_params, hopPrep_now]; rfl
  · rw [hopAction_actions, hopPrep_actions, hopPrep_block, hopPrep_params, hopPrepLogs_eq, ← List.append_assoc]
    rfl
  · simp [State.sameElsewhere]

/-- Settles O11: HOP_IDLE is what comes before the late guards, and nothing after it. -/
theorem hopIdleOnlyClampsTheTimers : Obligations.HopIdleOnlyClampsTheTimers := by
  intro d s
  refine ⟨s.hopPrep, rfl, hopPrep_block s, ?_, ?_, hopPrep_radio⟩
  · rw [hopPrep_actions, hopPrepLogs_eq, List.append_assoc]
  · simp [State.sameElsewhere]

/-! ### When an invocation hops -/

/-- The hop-stage bit (30_encoding.md R81). -/
theorem hopStage_iff (hopEn : Bool) (active : Byte) (st : BitVec 3) : hopStage hopEn active st = true ↔
    hopEn = true ∧ (st = stScan ∨ st = stCad) ∧ active = 0 := by
  simp only [hopStage, scanOrCad, Bool.and_eq_true, Bool.or_eq_true, beq_iff_eq, and_assoc,
    and_comm (a := active = 0)]

/-- The operation an invocation selects carries the invocation's dispatch word and is well formed. -/
theorem wellFormed_of_invocationInstr {s : State} {i : Instr} (h : s.invocationInstr = .ok i) :
    i.wellFormed = true ∧ i.dw? = some s.invocationDw := by
  obtain ⟨j, hsel, hwf⟩ := everyInvocationSelectsOneOperation s
  rw [h] at hsel
  cases hsel
  exact hwf

/-- A hop is selected in the hop stage alone (40_classifier.md R106). -/
theorem invocationDw_hs_of_hop {s : State} {i : Instr} {d : Dw} (h : s.invocationInstr = .ok i)
    (hi : i = .hopDoneTo d ∨ i = .hopEventTo d) : s.invocationDw.hs = true := by
  obtain ⟨hwf, hdw⟩ := wellFormed_of_invocationInstr h
  rcases hi with rfl | rfl <;> cases hdw <;> exact hwf

/-- The late guard of the hop selected: one of the two budgets has run out (41_hopper.md R122 to R124). -/
theorem budget_expired_of_hop {s : State} {i : Instr} {d : Dw} (h : s.invocationInstr = .ok i)
    (hi : i = .hopDoneTo d ∨ i = .hopEventTo d) :
    doneWait s.params s.block.sf < s.now.toNat - s.block.doneTime.toNat ∨
      eventWait s.params s.block.state < s.now.toNat - s.block.eventTime.toNat := by
  rw [hopGroupTakesTheFirstExpiredBudget s (invocationDw_hs_of_hop h hi)] at h
  have hrow := Except.ok.inj h
  split at hrow
  case isTrue hdone => exact .inl hdone
  split at hrow
  case isTrue hevent => exact .inr hevent
  case isFalse => rcases hi with rfl | rfl <;> cases hrow

/-- An operation of an invocation that is no hop keeps the channel (41_hopper.md R127). -/
theorem exec_channel_of_not_hop {i : Instr} {d : Dw} (hi : i.dw? = some d)
    (hno : i ≠ .hopDoneTo d ∧ i ≠ .hopEventTo d) {s t : State} (h : exec i s = .next t) :
    t.block.channel = s.block.channel := by
  obtain ⟨-, -, -, -, -, -, -, -, -, -, -, hchannel⟩ :=
    invocationsLeaveConfigurationAndOutboundSlot i d s t hi h
  exact hchannel.resolve_right (not_or.2 hno)

/-- Settles O12: the hop stage and the late guards give the first half, the frame of an invocation the second. -/
theorem noHopBeforeABudgetRunsOut : Obligations.NoHopBeforeABudgetRunsOut := by
  intro s i hnext hsel
  refine ⟨fun d hi => ?_, fun hno t ht => ?_⟩
  · obtain ⟨hen, hstate, hactive⟩ := (hopStage_iff _ _ _).1 (invocationDw_hs_of_hop hsel hi)
    have hbudget := budget_expired_of_hop hsel hi
    rw [popped_block] at hen hstate
    simp only [popped_block, popped_params, popped_now] at hbudget
    exact ⟨hen, hstate, hactive, hbudget⟩
  · rw [step_of_invocationInstr hnext hsel] at ht
    obtain ⟨-, hdw⟩ := wellFormed_of_invocationInstr hsel
    calc t.block.channel = s.popped.prologue.block.channel := exec_channel_of_not_hop hdw (hno _) ht
      _ = s.block.channel := by rw [prologue_block, popped_block]

end Sys2Proof.Machine
end

section
/-! The Init, Scan and Cad operations (spec/42_init_scan_cad.md): the words that select them, and their effects,
read off the tables of writes (`blockAfter`) and of actions (`emitted`). -/

namespace Sys2Proof.Machine
open Sys2Proof

/-! ### The words that select them -/

theorem decodeDw_init {d : Dw} (h : d.word &&& 0x02700 = 0x00000) :
    decodeDw d.word = .ok (.row (.init d)) := by
  obtain ⟨hs, hst⟩ := (rowTest_init d).1 h
  rw [decodeDw_word]
  simp [rowByState, hs, hst]

theorem decodeDw_scanDone {d : Dw} (h : d.word &&& 0x02705 = 0x00104) :
    decodeDw d.word = .ok (.row (.scanDone d)) := by
  obtain ⟨hs, hst, hdet, hdone⟩ := (rowTest_scanDone d).1 h
  rw [decodeDw_word]
  simp [rowByState, hs, hst, hdet, hdone]

theorem decodeDw_scanIdle {d : Dw} (h : d.word &&& 0x027FF = 0x00100) :
    decodeDw d.word = .ok (.row (.scanIdle d)) := by
  obtain ⟨hs, hst, hidle⟩ := (rowTest_scanIdle d).1 h
  rw [decodeDw_word]
  simp [rowByState, hs, hst, hidle]

theorem decodeDw_scanUnk {d : Dw} (h : d.word &&& 0x02705 = 0x00100) (ha : d.active ≠ 0) :
    decodeDw d.word = .ok (.row (.scanUnk d)) := by
  obtain ⟨hs, hst, hdet, hdone⟩ := (rowTest_scanUnk d).1 h
  have hcause : ¬ d.active = 0#8 := ha
  rw [decodeDw_word]
  simp [rowByState, hs, hst, hdet, hdone, hcause]

/-- The channel-activity-done word selects CAD_STEP or CAD_WRAP by its SF (42_init_scan_cad.md R144, R145). -/
theorem decodeDw_cadDone {d : Dw} (h : d.word &&& 0x02705 = 0x00204) :
    decodeDw d.word = .ok (.row (if d.sf.toNat < 12 then .cadStep d else .cadWrap d)) := by
  obtain ⟨hs, hst, hdet, hdone⟩ := (rowTest_cadDone d).1 h
  rw [decodeDw_word]
  by_cases hsf : d.sf.toNat < 12 <;> simp [rowByState, hs, hst, hdet, hdone, hsf]

theorem decodeDw_cadIdle {d : Dw} (h : d.word &&& 0x027FF = 0x00200) :
    decodeDw d.word = .ok (.row (.cadIdle d)) := by
  obtain ⟨hs, hst, hidle⟩ := (rowTest_cadIdle d).1 h
  rw [decodeDw_word]
  simp [rowByState, hs, hst, hidle]

theorem decodeDw_cadUnk {d : Dw} (h : d.word &&& 0x02705 = 0x00200) (ha : d.active ≠ 0) :
    decodeDw d.word = .ok (.row (.cadUnk d)) := by
  obtain ⟨hs, hst, hdet, hdone⟩ := (rowTest_cadUnk d).1 h
  have hcause : ¬ d.active = 0#8 := ha
  rw [decodeDw_word]
  simp [rowByState, hs, hst, hdet, hdone, hcause]

/-! ### Their effects -/

/-- The effect of an operation of an invocation, RX_OK aside: its rows in the two tables, and the frame. -/
theorem exec_effect {i : Instr} {d : Dw} (hi : i.dw? = some d) (hd : i.delivers = false) {s t : State}
    (h : exec i s = .next t) :
    t.block = blockAfter s i ∧ t.actions = s.actions ++ emitted s i ∧ s.sameElsewhere t :=
  ⟨(exec_invocation hi h).1, (exec_appends h).1, exec_sameElsewhere hi hd h⟩

/-- The four operations that clear the mask and then all flags after every other action leave both clear,
whatever the radio raised and the primitives did before. -/
theorem exec_interrupts_clear {i : Instr} {d : Dw}
    (hi : i = .scanDone d ∨ i = .scanUnk d ∨ i = .cadWrap d ∨ i = .cadUnk d) {s t : State}
    (h : exec i s = .next t) : t.radio.flags = 0 ∧ t.radio.mask = 0 := by
  rcases hi with rfl | rfl | rfl | rfl <;> cases h <;>
    exact ⟨clearMaskFlags_all _, clearMaskFlags_mask _ _⟩

/-- INIT clears the mask last; a flag stays set only if the radio raises it before that action
(42_init_scan_cad.md R136). -/
theorem exec_init_radio {d : Dw} {s t : State} (h : exec (.init d) s = .next t) :
    t.radio.mask = 0 ∧ (s.radioStill → t.radio.flags = 0) := by
  cases h
  exact ⟨emit_clrMask_mask _, fun hr => (emit_clrMask_flags (emit_still hr _)).trans (emit_clrFlags_all s)⟩

/-- CAD_IDLE's one action is a LOG, which never reaches the transceiver (30_encoding.md R89). -/
theorem exec_cadIdle_radio {d : Dw} {s t : State} (h : exec (.cadIdle d) s = .next t) (hr : s.radioStill) :
    t.radio = s.radio := by
  cases h
  exact emit_log_radio hr .cadIdle

/-- The RSSI byte SCAN_DONE compares: the answer to the read that follows OPMODE_CAD (42_init_scan_cad.md
R139). -/
def scanRssi (s : State) : Byte := (s.emit .opmodeCad).statusValue .rssi

theorem scanRssi_of_pending {s : State} {v : Byte} {l : List Byte} (h : s.radio.rssi = v :: l) :
    scanRssi s = v := statusValue_of_pending (q := .rssi) ((emit_pending s .opmodeCad .rssi).trans h)

/-- "Exceeds" is strict and unsigned, and `hopEn` alone picks the threshold (42_init_scan_cad.md R139, R140). -/
theorem rssiExceeds_iff (p : Params) (hopEn : Bool) (r : Byte) : rssiExceeds p hopEn r = true ↔
    (if hopEn then p.rssiLimitHop else p.rssiLimit).toNat < r.toNat := decide_eq_true_iff

/-- CLR_FLAGS of the empty set would clear nothing, so leaving it out changes nothing. -/
theorem interruptsAfter_clrFlags_unless_empty (p : Byte × Byte) (set : Byte) :
    interruptsAfter p (if set = 0 then [] else [.clrFlags set]) = (p.1 &&& ~~~set, p.2) := by
  split
  · next hempty => rw [hempty, interruptsAfter_nil, BitVec.ofNat_eq_ofNat, BitVec.not_zero, BitVec.and_allOnes]
  · rfl

/-- CAD_STEP clears the mask and the flags of `P_CAD_STEP_CLEAR` (42_init_scan_cad.md R144). -/
theorem exec_cadStep_radio {d : Dw} {s t : State} (hp : s.params.plainRadio) (hr : s.radioStill)
    (h : exec (.cadStep d) s = .next t) :
    t.radio.mask = 0 ∧ t.radio.flags = s.radio.flags &&& ~~~s.params.cadStepClear := by
  have hint := exec_interrupts hp hr h
  simp only [emitted, interruptsAfter_append, interruptsAfter_clrFlags_unless_empty] at hint
  obtain ⟨hflags, hmask⟩ := Prod.ext_iff.1 hint
  exact ⟨hmask, hflags⟩

/-! ### The statements, operation by operation -/

/-- Settles O15: INIT's word names its row whatever else it holds, and INIT always completes. -/
theorem initClearsAndAdvancesToScan : Obligations.InitClearsAndAdvancesToScan := by
  refine ⟨fun d => decodeDw_init, fun d s => ?_⟩
  obtain ⟨t, h⟩ : ∃ t, exec (.init d) s = .next t := ⟨_, rfl⟩
  obtain ⟨hblock, hactions, hsame⟩ := exec_effect rfl rfl h
  obtain ⟨hmask, hflags⟩ := exec_init_radio h
  exact ⟨t, h, hblock, hactions, hmask, hflags, hsame⟩

/-- Settles O17: the byte compared is the answer to the read after OPMODE_CAD. -/
theorem scanDoneComparesRssiWithTheThreshold : Obligations.ScanDoneComparesRssiWithTheThreshold := by
  refine ⟨fun d => decodeDw_scanDone, fun d s => ?_⟩
  obtain ⟨t, h⟩ : ∃ t, exec (.scanDone d) s = .next t := ⟨_, rfl⟩
  obtain ⟨hblock, hactions, hsame⟩ := exec_effect rfl rfl h
  obtain ⟨hflags, hmask⟩ := exec_interrupts_clear (.inl rfl) h
  simp only [blockAfter, rssiExceeds_iff] at hblock
  exact ⟨t, scanRssi s, h, fun _ _ => scanRssi_of_pending, hblock, hactions, hflags, hmask, hsame⟩

/-- Settles O19: with its own SF bound the channel-activity-done word selects CAD_STEP. -/
theorem cadStepRaisesTheSpreadingFactor : Obligations.CadStepRaisesTheSpreadingFactor := by
  refine ⟨fun d hw hsf => ?_, fun d s => ?_⟩
  · rw [decodeDw_cadDone hw, if_pos hsf]
  · obtain ⟨t, h⟩ : ∃ t, exec (.cadStep d) s = .next t := ⟨_, rfl⟩
    obtain ⟨hblock, hactions, hsame⟩ := exec_effect rfl rfl h
    exact ⟨t, h, hblock, by simp only [hactions, emitted, List.append_assoc], hsame,
      fun hp hr => exec_cadStep_radio hp hr h⟩

/-- Settles O20: from SF 12 on the channel-activity-done word selects CAD_WRAP. -/
theorem cadWrapRescansAtSf7 : Obligations.CadWrapRescansAtSf7 := by
  refine ⟨fun d hw hsf => ?_, fun d s => ?_⟩
  · rw [decodeDw_cadDone hw, if_neg (Nat.not_lt.2 hsf)]
  · obtain ⟨t, h⟩ : ∃ t, exec (.cadWrap d) s = .next t := ⟨_, rfl⟩
    obtain ⟨hblock, hactions, hsame⟩ := exec_effect rfl rfl h
    obtain ⟨hflags, hmask⟩ := exec_interrupts_clear (.inr (.inr (.inl rfl))) h
    exact ⟨t, h, hblock, hactions, hflags, hmask, hsame⟩

/-- Settles O21: CAD_IDLE only logs and writes the marker; CAD_UNK ends with the clears. -/
theorem cadIdleAndUnknownSetTheMarker : Obligations.CadIdleAndUnknownSetTheMarker := by
  refine ⟨fun d => ⟨decodeDw_cadIdle, decodeDw_cadUnk⟩, fun d s => ?_, fun d s => ?_⟩
  · obtain ⟨t, h⟩ : ∃ t, exec (.cadIdle d) s = .next t := ⟨_, rfl⟩
    obtain ⟨hblock, hactions, hsame⟩ := exec_effect rfl rfl h
    exact ⟨t, h, hblock, hactions, hsame, exec_cadIdle_radio h⟩
  · obtain ⟨t, h⟩ : ∃ t, exec (.cadUnk d) s = .next t := ⟨_, rfl⟩
    obtain ⟨hblock, hactions, hsame⟩ := exec_effect rfl rfl h
    obtain ⟨hflags, hmask⟩ := exec_interrupts_clear (.inr (.inr (.inr rfl))) h
    exact ⟨t, h, hblock, hactions, hflags, hmask, hsame⟩

/-- Settles O18: SCAN_IDLE is one write of the marker; SCAN_UNK logs and clears. -/
theorem scanIdleAndUnknownStayInScan : Obligations.ScanIdleAndUnknownStayInScan := by
  refine ⟨fun d => ⟨decodeDw_scanIdle, decodeDw_scanUnk⟩, fun d s => rfl, fun d s => ?_⟩
  obtain ⟨t, h⟩ : ∃ t, exec (.scanUnk d) s = .next t := ⟨_, rfl⟩
  obtain ⟨hblock, hactions, hsame⟩ := exec_effect rfl rfl h
  obtain ⟨hflags, hmask⟩ := exec_interrupts_clear (.inr (.inl rfl)) h
  exact ⟨t, h, hblock, hactions, hflags, hmask, hsame⟩

/-! ### The spreading factor of a Cad visit -/

/-- RESUME leaves Scan or Rx (43_rx.md R161). -/
theorem resumedBlock_state_ne_stCad (b : Block) : (resumedBlock b).state ≠ stCad := by
  unfold resumedBlock
  split
  · exact (by decide : stScan ≠ stCad)
  · exact (by decide : stRx ≠ stCad)

/-- An operation of an invocation that ends in Cad is CAD_STEP, which adds one to the SF, or keeps the SF: each
that sets SF 7 leaves Cad in the same step (42_init_scan_cad.md R148). -/
theorem blockAfter_sf_of_cad {s : State} {i : Instr} (h : (blockAfter s i).state = stCad) :
    ((∃ d, i = .cadStep d) ∧ (blockAfter s i).sf = s.block.sf + 1) ∨ (blockAfter s i).sf = s.block.sf := by
  cases i with
  | cadStep d => exact .inl ⟨⟨d, rfl⟩, rfl⟩
  | hopDoneTo | hopEventTo | cadWrap | cadUnk | rxReadfail => cases h
  | rxCrcerr | rxOk | txdoneOk | badState => exact (resumedBlock_state_ne_stCad _ h).elim
  | rxTimeout =>
    simp only [blockAfter] at h ⊢
    split at h
    · cases h
    · next hoff => exact .inr (if_neg hoff)
  | _ => exact .inr rfl

/-- The host writes no SF, and both H_TX_REQUEST and the reset signal end outside Cad. -/
theorem HostWrites.sf_of_cad {s : State} {i : Instr} {b : Block} (h : HostWrites s i b) (hb : b.state = stCad) :
    b.sf = s.block.sf := by
  cases h with
  | nothing | config | outMeta | outByte => rfl
  | txRequest | reset => cases hb

/-- Settles O22: the table of writes, and the writes of the host. -/
theorem cadVisitOnlyStepsTheSpreadingFactorUp : Obligations.CadVisitOnlyStepsTheSpreadingFactorUp := by
  intro i s t h _ hcad hne
  cases hi : i.dw? with
  | some d =>
    rw [(exec_invocation hi h).1] at hcad hne ⊢
    exact (blockAfter_sf_of_cad hcad).resolve_right hne
  | none => exact (hne ((exec_host_writes hi h).sf_of_cad hcad)).elim

end Sys2Proof.Machine
end

section
/-! The Rx operations (spec/43_rx.md): the decoded metadata as numbers, RX_OK on pending answers, the fault of an
over-long answer, the rows that read no packet, and the count of DELIVER and START_TX per operation. -/

namespace Sys2Proof.Machine
open Sys2Proof

/-! ### RX_OK on pending answers -/

/-- A positive signed number and its unsigned reading agree. -/
theorem toNat_toInt_of_pos {w : Nat} {n : BitVec w} (h : 0 < n.toInt) : n.toInt.toNat = n.toNat :=
  BitVec.toNat_toInt_of_msb n (by rw [BitVec.msb_eq_toInt]; exact decide_eq_false h.le.not_gt)

/-- A pending answer that gives every byte of its packet is what READ_PACKET answers (20_memory.md R56). -/
theorem packetBytes_of_pending {s : State} {p : PktAnswer} {l : List PktAnswer} (h : s.radio.packets = p :: l)
    (hlen : p.n.toInt.toNat = p.bytes.length) : s.packetBytes = p.bytes := by
  have hcount : s.packetBytes.length = p.bytes.length := by
    rw [packetBytes_length, packetLength_of_pending h, hlen]
  refine List.ext_getElem hcount fun j _ hj => ?_
  rw [← List.getD_eq_getElem p.bytes 0 hj, ← packetByte_of_pending h hj]
  simp [State.packetBytes]

/-- RX_OK takes one packet answer and one answer of the parser (43_rx.md R166, R175). -/
theorem exec_rxOk_takes {d : Dw} {s t : State} (h : exec (.rxOk d) s = .next t) :
    t.radio.packets = s.radio.packets.tail ∧ t.parser = s.parser.tail := by
  simp only [exec, execRxOk] at h
  split at h <;> cases h
  simp

/-- Settles O26: RX_OK on any answers, with the pending ones put in for what its reads give. -/
theorem goodPacketIsStagedAndDelivered : Obligations.GoodPacketIsStagedAndDelivered := by
  intro d s c snr rssi sfc cs snrs rssis sfcs p ps k ks hbuf hcrc hpkt hsnr hrssi hsf hparser hpos hfits hcap hlen
  have hlength : s.rxLength = p.n.toInt := rxLength_of_pending hpkt
  have hnat : p.n.toInt.toNat = p.n.toNat := toNat_toInt_of_pos hpos
  have hstaged : s.rxStaged.radio.packets = p :: ps := (rxStaged_packets s).trans hpkt
  obtain ⟨t, n, bytes, snr', rssi', sfc', k', buf, hexec, hn, hbytes, -, -, -, -, hsnr', hrssi', hsf', hk', hread,
    hblock, hactions, hflags, hmask, hnow, hscript, hreply, hparams⟩ :=
    rxOkCompletesOnDrawnAnswers d s hbuf (hlength ▸ hpos) (hlength ▸ hfits) hcap
  obtain ⟨hpackets, hqueue⟩ := exec_rxOk_takes hexec
  obtain rfl : n = p.n := BitVec.eq_of_toInt_eq (hn.trans hlength)
  obtain rfl : bytes = p.bytes := hbytes.trans (packetBytes_of_pending hstaged (hnat.trans hlen.symm))
  obtain rfl := hsnr' _ _ hsnr
  obtain rfl := hrssi' _ _ hrssi
  obtain rfl := hsf' _ _ hsf
  obtain rfl := hk' _ _ hparser
  rw [statusValue_of_pending (q := .crcOn) hcrc] at hactions
  rw [hpkt] at hpackets
  rw [hparser] at hqueue
  refine ⟨t, buf, hexec, fun j => ?_, hblock, hactions, hflags, hmask, hqueue, hpackets, hnow, hscript, hreply,
    hparams⟩
  rw [hread, hlength, hnat]
  split
  · next hj => exact packetByte_of_pending hstaged (hlen ▸ hj)
  · rfl

/-! ### The over-long answer -/

/-- Settles O28: the receive-done group past its CRC check, of the invocation the step is. -/
theorem overlongReadFaults : Obligations.OverlongReadFaults := by
  intro s c cs p ps hnext hstate hdone hcrc hnocrc hpkt hover
  obtain ⟨_, _, -, -, hc, hn, -, hpast⟩ := receiveDoneTakesTheFirstRowThatHolds s.popped
    (by rw [popped_block]; exact hstate) hdone
  obtain rfl := hc c cs (by rw [popped_radio]; exact hcrc)
  obtain rfl := hn p ps (by rw [popped_radio]; exact hpkt)
  obtain ⟨-, -, hfault⟩ := hpast hnocrc
  rw [step_of_invokesNext hnext]
  exact hfault (by rw [popped_params]; exact hover)

/-! ### The words of the rows that read no packet -/

theorem decodeDw_rxTimeout {d : Dw} (h : d.word &&& 0x027C0 = 0x00380) :
    decodeDw d.word = .ok (.row (.rxTimeout d)) := by
  obtain ⟨hs, hst, hdone, htout⟩ := (rowTest_rxTimeout d).1 h
  rw [decodeDw_word]
  simp [rowByState, hs, hst, hdone, htout]

theorem decodeDw_rxHdr {d : Dw} (h : d.word &&& 0x027FF = 0x00310) :
    decodeDw d.word = .ok (.row (.rxHdr d)) := by
  obtain ⟨hs, hst, hheader⟩ := (rowTest_rxHdr d).1 h
  rw [decodeDw_word]
  simp [rowByState, hs, hst, hheader]

theorem decodeDw_rxIdle {d : Dw} (h : d.word &&& 0x027FF = 0x00300) :
    decodeDw d.word = .ok (.row (.rxIdle d)) := by
  obtain ⟨hs, hst, hidle⟩ := (rowTest_rxIdle d).1 h
  rw [decodeDw_word]
  simp [rowByState, hs, hst, hidle]

theorem decodeDw_rxUnk {d : Dw} (h : d.word &&& 0x027C0 = 0x00300) (ha : d.active ≠ 0) (hh : d.active ≠ 0x10) :
    decodeDw d.word = .ok (.row (.rxUnk d)) := by
  obtain ⟨hs, hst, hdone, htout⟩ := (rowTest_rxUnk d).1 h
  have hcause : ¬ d.active = 0#8 := ha
  have hheader : ¬ d.active = 16#8 := hh
  rw [decodeDw_word]
  simp [rowByState, hs, hst, hdone, htout, hcause, hheader]

/-! ### RX_TIMEOUT, RX_HDR, RX_IDLE and RX_UNK -/

/-- RX_TIMEOUT clears all flags and the mask; the actions that follow change neither (43_rx.md R176). -/
theorem exec_rxTimeout_radio {d : Dw} {s t : State} (hp : s.params.plainRadio) (hr : s.radioStill)
    (h : exec (.rxTimeout d) s = .next t) : t.radio.flags = 0 ∧ t.radio.mask = 0 := by
  have hint := exec_interrupts hp hr h
  have hrearm : ∀ p, interruptsAfter p (if hopOrCad s.block
      then [.log .rxTimeout, .armScan s.block.channel 7] else [.startRxCont]) = p := by
    intro p; split <;> rfl
  rw [emitted, interruptsAfter_append, hrearm] at hint
  obtain ⟨hflags, hmask⟩ := Prod.ext_iff.1 hint
  exact ⟨hflags.trans BitVec.and_zero, hmask⟩

/-- Settles O29: the rows of RX_TIMEOUT in the tables of writes and of actions. -/
theorem rxTimeoutRescansOrRearms : Obligations.RxTimeoutRescansOrRearms := by
  refine ⟨fun d => decodeDw_rxTimeout, fun d s => ?_⟩
  obtain ⟨t, h⟩ : ∃ t, exec (.rxTimeout d) s = .next t := ⟨_, rfl⟩
  obtain ⟨hblock, hactions, hsame⟩ := exec_effect rfl rfl h
  rw [emitted, ← List.append_assoc] at hactions
  exact ⟨t, h, hblock, hactions, hsame, fun hp hr => exec_rxTimeout_radio hp hr h⟩

/-- RX_UNK's one action is a LOG, which never reaches the transceiver (43_rx.md R179; 30_encoding.md R89). -/
theorem exec_rxUnk_radio {d : Dw} {s t : State} (h : exec (.rxUnk d) s = .next t) (hr : s.radioStill) :
    t.radio = s.radio := by
  cases h
  exact emit_log_radio hr .rxUnknown

/-- Settles O30: RX_HDR and RX_IDLE have no body; RX_UNK's is its log. -/
theorem rxWaitsQuietly : Obligations.RxWaitsQuietly := by
  refine ⟨fun d => ⟨decodeDw_rxHdr, decodeDw_rxIdle, decodeDw_rxUnk⟩, fun d s => ⟨rfl, rfl⟩, fun d s => ?_⟩
  obtain ⟨t, h⟩ : ∃ t, exec (.rxUnk d) s = .next t := ⟨_, rfl⟩
  obtain ⟨hblock, hactions, hsame⟩ := exec_effect rfl rfl h
  exact ⟨t, h, hblock, hactions, hsame, exec_rxUnk_radio h⟩

/-! ### How many DELIVER and START_TX an operation emits -/

/-- How many DELIVER and how many START_TX an action list holds. -/
def outputCounts (l : List Action) : Nat × Nat := (countDeliver l, countStartTx l)

/-- The two counts of one action. -/
def outputCount : Action → Nat × Nat
  | .deliver _ _ => (1, 0)
  | .startTx _ => (0, 1)
  | .rd _ _ | .readPacket _ _ | .clrMask | .clrFlags _ | .setDio _ | .opmodeCad | .setRate _ _
  | .startRxSingle | .startRxCont | .armScan _ _ | .log _ | .yield => (0, 0)

@[simp] theorem outputCounts_nil : outputCounts [] = (0, 0) := rfl

@[simp] theorem outputCounts_append (l m : List Action) :
    outputCounts (l ++ m) = outputCounts l + outputCounts m :=
  Prod.ext List.countP_append List.countP_append

@[simp] theorem outputCounts_cons (a : Action) (l : List Action) :
    outputCounts (a :: l) = outputCount a + outputCounts l := by
  have hone : outputCounts [a] = outputCount a := by cases a <;> rfl
  rw [← hone, ← outputCounts_append, List.singleton_append]

@[simp] theorem outputCounts_hopPrepLogs (b : Block) : outputCounts (hopPrepLogs b) = (0, 0) := by
  unfold hopPrepLogs; split <;> split <;> rfl

@[simp] theorem outputCount_resumeAction (b : Block) : outputCount (resumeAction b) = (0, 0) := by
  unfold resumeAction; split <;> rfl

/-- RX_OK's actions hold one DELIVER, TX's one START_TX, and no other operation's hold either. -/
theorem outputCounts_emitted (s : State) (i : Instr) :
    outputCounts (emitted s i) = (i.delivers.toNat, i.transmits.toNat) := by
  cases i with
  | hopDoneTo | hopEventTo | hopIdle => simp only [emitted, outputCounts_append, outputCounts_hopPrepLogs]; rfl
  | rxCrcerr | rxOk | txdoneOk | badState =>
    simp only [emitted, outputCounts_cons, outputCount_resumeAction]; rfl
  | cadStep | rxTimeout | txdoneWait | tx => simp only [emitted]; split <;> rfl
  | _ => rfl

/-- Settles O54: an operation's actions are appended to the list it is given. -/
theorem deliverOnlyInRxOkAndStartTxOnlyInTx : Obligations.DeliverOnlyInRxOkAndStartTxOnlyInTx := by
  intro i s t h
  have hcounts : outputCounts t.actions = outputCounts s.actions + (i.delivers.toNat, i.transmits.toNat) := by
    rw [(exec_appends h).1, outputCounts_append, outputCounts_emitted]
  exact Prod.ext_iff.1 hcounts

/-! ### The decoded metadata -/

/-- Rounded down, the raw field over 4 is the arithmetic shift (43_rx.md R170). -/
theorem snrDecode_floor_toInt (raw : Byte) : (snrDecode .floor raw).toInt = raw.toInt.fdiv 4 := by
  rw [snrDecode, BitVec.toInt_sshiftRight, Int.shiftRight_eq_div_pow, Int.fdiv_eq_ediv_of_nonneg _ (by decide)]
  rfl

theorem byte_toInt_range (raw : Byte) : -128 ≤ raw.toInt ∧ raw.toInt ≤ 127 :=
  ⟨BitVec.le_toInt raw, Int.lt_add_one_iff.1 BitVec.toInt_lt⟩

theorem byte_fdiv_four_range (raw : Byte) : -32 ≤ raw.toInt.fdiv 4 ∧ raw.toInt.fdiv 4 ≤ 31 := by
  have hraw := byte_toInt_range raw
  rw [Int.fdiv_eq_ediv_of_nonneg _ (by decide)]
  omega

/-- Rounding toward zero adds at most one to rounding down, and only to a negative quotient. -/
theorem byte_tdiv_four_range (raw : Byte) : -32 ≤ raw.toInt.tdiv 4 ∧ raw.toInt.tdiv 4 ≤ 31 := by
  have hraw := byte_toInt_range raw
  have hsign : (4 : Int).sign = 1 := rfl
  rw [Int.tdiv_eq_ediv, hsign]
  split <;> omega

/-- The quotient rounded toward zero fits a signed byte. -/
theorem snrDecode_trunc_toInt (raw : Byte) : (snrDecode .trunc raw).toInt = raw.toInt.tdiv 4 := by
  obtain ⟨hlo, hhi⟩ := byte_tdiv_four_range raw
  exact BitVec.toInt_ofInt_eq_self (by decide) (by omega) (by omega)

/-- Settles O31: the quotients of the two roundings, and their range. -/
theorem snrIsTheRawFieldDividedByFour : Obligations.SnrIsTheRawFieldDividedByFour := by
  intro raw
  rw [snrDecode_floor_toInt, snrDecode_trunc_toInt]
  obtain ⟨hflo, hfhi⟩ := byte_fdiv_four_range raw
  obtain ⟨htlo, hthi⟩ := byte_tdiv_four_range raw
  exact ⟨rfl, rfl, hflo, hfhi, htlo, hthi⟩

/-- Both of R14's corrections keep the sum within signed 16 bits. -/
theorem corrFits_rssiCorr {p : Params} (h : p.legal) (model : Bool) : corrFits (rssiCorr p model) := by
  obtain ⟨-, -, -, -, hA, hB, -⟩ := h
  unfold rssiCorr
  split
  · exact hB
  · exact hA

/-- Settles O32: the sum fits, so nothing of it is lost (R171). -/
theorem packetRssiIsExact : Obligations.PacketRssiIsExact := by
  intro p model raw hp
  obtain ⟨hlo, hhi⟩ := corrFits_rssiCorr hp model
  have hraw : raw.toNat < 256 := raw.isLt
  exact BitVec.toInt_ofInt_eq_self (by decide) (by omega) (by omega)

end Sys2Proof.Machine
end

section
/-! The Tx, TxDone and unrecognized-state operations (spec/44_tx_txdone.md): the words that select them, their
effects, read off the tables of writes (`blockAfter`) and of actions (`emitted`), the deadline of TXDONE_WAIT, and
what an invocation runs after a transmit request and where nothing is active. -/

namespace Sys2Proof.Machine
open Sys2Proof

/-! ### The words that select them -/

theorem decodeDw_tx {d : Dw} (h : d.word &&& 0x02700 = 0x00400) :
    decodeDw d.word = .ok (.row (.tx d)) := by
  obtain ⟨hs, hst⟩ := (rowTest_tx d).1 h
  rw [decodeDw_word]
  simp [rowByState, hs, hst]

theorem decodeDw_txdoneOk {d : Dw} (h : d.word &&& 0x02708 = 0x00508) :
    decodeDw d.word = .ok (.row (.txdoneOk d)) := by
  obtain ⟨hs, hst, hdone⟩ := (rowTest_txdoneOk d).1 h
  rw [decodeDw_word]
  simp [rowByState, hs, hst, hdone]

theorem decodeDw_txdoneWait {d : Dw} (h : d.word &&& 0x027FF = 0x00500) :
    decodeDw d.word = .ok (.row (.txdoneWait d)) := by
  obtain ⟨hs, hst, hidle⟩ := (rowTest_txdoneWait d).1 h
  rw [decodeDw_word]
  simp [rowByState, hs, hst, hidle]

theorem decodeDw_txdoneUnk {d : Dw} (h : d.word &&& 0x02708 = 0x00500) (ha : d.active ≠ 0) :
    decodeDw d.word = .ok (.row (.txdoneUnk d)) := by
  obtain ⟨hs, hst, hdone⟩ := (rowTest_txdoneUnk d).1 h
  have hcause : ¬ d.active = 0#8 := ha
  rw [decodeDw_word]
  simp [rowByState, hs, hst, hdone, hcause]

/-- State codes 6 and 7 are no state's, whatever is active (44_tx_txdone.md R193). -/
theorem decodeDw_badState {d : Dw} (h : d.word &&& 0x02600 = 0x00600) :
    decodeDw d.word = .ok (.row (.badState d)) := by
  obtain ⟨hs, hst⟩ := (rowTest_badState d).1 h
  rw [decodeDw_word]
  rcases hst with hst | hst <;> simp [rowByState, hs, hst]

/-! ### What they leave of the flags and the mask -/

/-- CLR_MASK and CLR_FLAGS(0xFF) leave both registers clear, whatever stood in them. -/
theorem interruptsAfter_clearAll (p : Byte × Byte) :
    interruptsAfter p [.clrMask, .clrFlags 0xFF] = (0, 0) := Prod.ext BitVec.and_zero rfl

/-- TX and TXDONE_OK clear both registers before their last action, a primitive (44_tx_txdone.md R186, R189). -/
theorem interruptsAfter_emitted_txClears {i : Instr} {d : Dw} (s : State) (p : Byte × Byte)
    (hi : i = .tx d ∨ i = .txdoneOk d) : interruptsAfter p (emitted s i) = (0, 0) := by
  rcases hi with rfl | rfl
  · have hlist : emitted s (.tx d) = (if d.active = 0 then [.log .txForced] else []) ++
        ([.clrMask, .clrFlags 0xFF] ++ [.startTx (outboundRecord s.block)]) := rfl
    rw [hlist, interruptsAfter_append, interruptsAfter_append, interruptsAfter_clearAll]
    rfl
  · have hlist : emitted s (.txdoneOk d) = [.clrMask, .clrFlags 0xFF] ++ [resumeAction s.block] := rfl
    rw [hlist, interruptsAfter_append, interruptsAfter_clearAll, interruptsAfter_cons,
      onInterrupts_resumeAction, interruptsAfter_nil]

theorem exec_txClears_radio {i : Instr} {d : Dw} (hi : i = .tx d ∨ i = .txdoneOk d) {s t : State}
    (hp : s.params.plainRadio) (hr : s.radioStill) (h : exec i s = .next t) :
    t.radio.flags = 0 ∧ t.radio.mask = 0 := by
  have hint := exec_interrupts hp hr h
  rw [interruptsAfter_emitted_txClears s _ hi] at hint
  exact Prod.ext_iff.1 hint

/-- TXDONE_UNK and BAD_STATE clear both registers after every other action, so whatever the radio raised and the
primitives did before (44_tx_txdone.md R190, R193). -/
theorem exec_txClearsLast_radio {i : Instr} {d : Dw} (hi : i = .txdoneUnk d ∨ i = .badState d) {s t : State}
    (h : exec i s = .next t) : t.radio.flags = 0 ∧ t.radio.mask = 0 := by
  rcases hi with rfl | rfl <;> cases h <;>
    exact ⟨clearMaskFlags_all _, clearMaskFlags_mask _ _⟩

/-! ### The statements, operation by operation -/

/-- Settles O33: the record of START_TX is the outbound slot TX finds, which it does not write. -/
theorem txSendsTheOutboundSlotOnce : Obligations.TxSendsTheOutboundSlotOnce := by
  refine ⟨fun d => decodeDw_tx, fun d s => ?_⟩
  obtain ⟨t, h⟩ : ∃ t, exec (.tx d) s = .next t := ⟨_, rfl⟩
  obtain ⟨hblock, hactions, hsame⟩ := exec_effect rfl rfl h
  rw [emitted, ← List.append_assoc] at hactions
  exact ⟨t, h, hblock, hactions, hsame, fun hp hr => exec_txClears_radio (.inl rfl) hp hr h⟩

/-- Settles O34: the clears, the marker, and RESUME's rows in the two tables. -/
theorem transmitDoneResumes : Obligations.TransmitDoneResumes := by
  refine ⟨fun d => decodeDw_txdoneOk, fun d s => ?_⟩
  obtain ⟨t, h⟩ : ∃ t, exec (.txdoneOk d) s = .next t := ⟨_, rfl⟩
  obtain ⟨hblock, hactions, hsame⟩ := exec_effect rfl rfl h
  exact ⟨t, h, hblock, hactions, hsame, fun hp hr => exec_txClears_radio (.inr rfl) hp hr h⟩

/-- The list of TXDONE_WAIT over the natural difference of the two times, a `sendTime` ahead of the time counting
as 0 elapsed (44_tx_txdone.md R191; 41_hopper.md R120). -/
theorem emitted_txdoneWait (d : Dw) (s : State) : emitted s (.txdoneWait d) =
    if s.params.txDeadline < s.now.toNat - s.block.sendTime.toNat then [.log .txDeadline, .startRxCont]
    else [] := by
  rw [emitted, elapsed_eq_sub]

/-- Settles O35: the clamp is TXDONE_WAIT's one write, and the deadline is strict. -/
theorem txdoneWaitRearmsAfterTheDeadline : Obligations.TxdoneWaitRearmsAfterTheDeadline := by
  refine ⟨fun d => decodeDw_txdoneWait, fun d s => ?_⟩
  obtain ⟨t, h⟩ : ∃ t, exec (.txdoneWait d) s = .next t := ⟨_, rfl⟩
  obtain ⟨hblock, hactions, hsame⟩ := exec_effect rfl rfl h
  rw [emitted_txdoneWait] at hactions
  exact ⟨t, h, hblock, hactions, hsame⟩

/-- TXDONE_WAIT at a time that has reached `sendTime` has nothing to clamp: it leaves the block as it was. -/
theorem exec_txdoneWait_block {d : Dw} {s t : State} (h : exec (.txdoneWait d) s = .next t)
    (hle : s.block.sendTime.toNat ≤ s.now.toNat) : t.block = s.block := by
  rw [(exec_invocation rfl h).1, blockAfter, clamp_of_le hle]

/-- TXDONE_WAIT past the deadline (44_tx_txdone.md R191). -/
theorem exec_txdoneWait_expired {d : Dw} {s t : State} (h : exec (.txdoneWait d) s = .next t)
    (hlate : s.params.txDeadline < s.now.toNat - s.block.sendTime.toNat) :
    t.block = s.block ∧ t.actions = s.actions ++ [.log .txDeadline, .startRxCont] :=
  ⟨exec_txdoneWait_block h (by omega), by rw [(exec_appends h).1, emitted_txdoneWait, if_pos hlate]⟩

/-- Settles O36: the first re-arm leaves `sendTime`, so at a time not before the deadline is still passed. -/
theorem deadlineRearmRepeats : Obligations.DeadlineRearmRepeats := by
  intro d e s t u v hs hlate hblock hparams htime hu
  have hkept : u.block = s.block := hblock.trans (exec_txdoneWait_expired hs hlate).1
  have hlater : u.params.txDeadline < u.now.toNat - u.block.sendTime.toNat := by
    rw [hkept, hparams, (exec_now_params hs).2]
    omega
  rw [← hblock]
  exact exec_txdoneWait_expired hu hlater

/-- Settles O37: TXDONE_UNK's list is its log and the two clears. -/
theorem unexpectedCauseInTxDoneGoesToScan : Obligations.UnexpectedCauseInTxDoneGoesToScan := by
  refine ⟨fun d => decodeDw_txdoneUnk, fun d s => ?_⟩
  obtain ⟨t, h⟩ : ∃ t, exec (.txdoneUnk d) s = .next t := ⟨_, rfl⟩
  obtain ⟨hblock, hactions, hsame⟩ := exec_effect rfl rfl h
  obtain ⟨hflags, hmask⟩ := exec_txClearsLast_radio (.inl rfl) h
  exact ⟨t, h, hblock, hactions, hflags, hmask, hsame⟩

/-- Settles O38: RESUME's rows in the two tables, between the log and the clears. -/
theorem badStateRecovers : Obligations.BadStateRecovers := by
  refine ⟨fun d => decodeDw_badState, fun d s => ?_⟩
  obtain ⟨t, h⟩ : ∃ t, exec (.badState d) s = .next t := ⟨_, rfl⟩
  obtain ⟨hblock, hactions, hsame⟩ := exec_effect rfl rfl h
  obtain ⟨hflags, hmask⟩ := exec_txClearsLast_radio (.inr rfl) h
  exact ⟨t, h, hblock, hactions, hflags, hmask, hsame⟩

/-! ### The invocation that follows a transmit request -/

/-- In state Tx an invocation runs TX: the hop stage does not apply, and TX is the state's only row
(40_classifier.md R106; 44_tx_txdone.md R186). -/
theorem invocationInstr_of_tx {s : State} (h : s.block.state = stTx) :
    s.invocationInstr = .ok (.tx s.invocationDw) := by
  have hst : s.invocationDw.state = stTx := h
  have hhs : s.invocationDw.hs = false := by
    simp [State.invocationDw, dispatchWord, hopStage, scanOrCad, h]
  rw [invocationInstr_eq]
  simp [rowByState, hhs, hst]

/-- A request outside Tx is accepted and claims the slot (45_host.md R210). -/
theorem exec_hTxRequest_state {s t : State} (h : exec .hTxRequest s = .next t) (hst : s.block.state ≠ stTx) :
    t.block.state = stTx := by
  have hfree : ¬ (s.block.state == stTx) = true := by rwa [beq_iff_eq]
  rw [exec, execHTxRequest, if_neg hfree] at h
  cases h
  rfl

/-- Settles O45: the request leaves state Tx, which has one row. -/
theorem txRequestIsFollowedByTx : Obligations.TxRequestIsFollowedByTx := fun _ t h hst =>
  ⟨t.invocationDw, invocationInstr_of_tx (exec_hTxRequest_state h hst)⟩

/-! ### An invocation that finds nothing active -/

/-- The rows of the four states where nothing is active. -/
def isIdleRow : Instr → Bool
  | .scanIdle _ | .cadIdle _ | .rxIdle _ | .txdoneWait _ => true
  | _ => false

/-- With hop disabled the hop stage does not apply, so where nothing is active the state alone names the row
(44_tx_txdone.md R196). -/
theorem invocationInstr_of_idle {s : State} (hhop : s.block.hopEn = false) (hidle : s.invocationActive = 0)
    (hst : s.block.state = stScan ∨ s.block.state = stCad ∨ s.block.state = stRx ∨ s.block.state = stTxDone) :
    ∃ i, s.invocationInstr = .ok i ∧ isIdleRow i = true := by
  have hhs : s.invocationDw.hs = false := by simp [State.invocationDw, dispatchWord, hopStage, hhop]
  have hactive : s.invocationDw.active = 0#8 := hidle
  have hcode : s.invocationDw.state = s.block.state := rfl
  refine ⟨_, invocationInstr_eq s, ?_⟩
  rcases hst with hst | hst | hst | hst <;>
    simp [rowByState, hhs, hactive, hcode, hst, isIdleRow]

/-- The four idle rows read no packet: they always answer a next state. -/
theorem exec_idle_next {i : Instr} (hi : isIdleRow i = true) (s : State) : ∃ t, exec i s = .next t := by
  rcases exec_next_or_overlen i s with h | ⟨-, d, rfl | rfl⟩
  · exact h
  · cases hi
  · cases hi

/-- The four idle rows write no state code (44_tx_txdone.md R196). -/
theorem exec_idle_state {i : Instr} (hi : isIdleRow i = true) {s t : State} (h : exec i s = .next t) :
    t.block.state = s.block.state := by
  cases i with
  | scanIdle | cadIdle | rxIdle | txdoneWait => rw [(exec_invocation rfl h).1]; rfl
  | _ => cases hi

/-- Settles O57: the invocation runs its state's idle row, and the prologue writes the marker alone. -/
theorem idleInvocationKeepsTheState : Obligations.IdleInvocationKeepsTheState := by
  intro s hnext hhop hidle hst
  rw [← popped_block s] at hhop hst ⊢
  obtain ⟨i, hsel, hi⟩ := invocationInstr_of_idle hhop hidle hst
  obtain ⟨t, ht⟩ := exec_idle_next hi s.popped.prologue
  refine ⟨t, by rw [step_of_invocationInstr hnext hsel, ht], ?_⟩
  rw [exec_idle_state hi ht, prologue_block]

end Sys2Proof.Machine
end

section
/-! The host transactions (45_host.md R205 to R212), one equation each in the words of the rule it follows: the
reply, and the one register or byte a performed write sets. From the equations: what a step with a host word runs,
what a refusal leaves as it was, and that in Tx the outbound slot is protected (R222). -/

namespace Sys2Proof.Machine
open Sys2Proof

/-! ### The fields of DATA and the registers of the map -/

/-- A field that reaches the word's top is 0 exactly where the word's number fits in the bits below it: how the
rules' ranges of DATA and the model's tests on its reserved bits agree. -/
theorem extractLsb'_eq_zero_iff_lt {w k n : Nat} (hw : w ≤ k + n) (x : BitVec w) :
    x.extractLsb' k n = 0 ↔ x.toNat < 2 ^ k := by
  have hfits : x.toNat / 2 ^ k < 2 ^ n := by
    rw [Nat.div_lt_iff_lt_mul (Nat.two_pow_pos k), ← Nat.pow_add, Nat.add_comm n k]
    exact x.isLt.trans_le (Nat.pow_le_pow_right Nat.two_pos hw)
  rw [← BitVec.toNat_inj, BitVec.extractLsb'_toNat, Nat.shiftRight_eq_div_pow, Nat.mod_eq_of_lt hfits,
    BitVec.ofNat_eq_ofNat, BitVec.toNat_ofNat, Nat.zero_mod, Nat.div_eq_zero_iff_lt (Nat.two_pow_pos k)]

/-- The readable indices of the map that are not a payload register's (30_encoding.md R91, 45_host.md R206). -/
def plainReadable : List (BitVec 7) :=
  [0x00, 0x01, 0x03, 0x04, 0x05, 0x06, 0x07, 0x08, 0x09, 0x10, 0x11, 0x12, 0x13,
    0x18, 0x19, 0x1A, 0x1B, 0x1C, 0x1D]

theorem readableReg_iff_plain_or_payload (reg : BitVec 7) :
    readableReg reg = true ↔ reg ∈ plainReadable ∨ isPayloadReg reg = true := by
  revert reg; decide

/-- The outbound metadata indices, one by one (45_host.md R208). -/
theorem outMeta_cases {reg : BitVec 7} (hlo : 0x18 ≤ reg.toNat) (hhi : reg.toNat ≤ 0x1D) :
    reg = 0x18 ∨ reg = 0x19 ∨ reg = 0x1A ∨ reg = 0x1B ∨ reg = 0x1C ∨ reg = 0x1D := by
  simp only [← BitVec.toNat_inj, BitVec.reduceToNat]
  omega

/-! ### H_READ -/

/-- A payload read answers the byte of the register's space, and is refused outside the space or with another bit
set (45_host.md R206). -/
theorem exec_hRead_payload {reg : BitVec 7} (hreg : isPayloadReg reg = true) (data : Word) (s : State) :
    exec (.hRead reg data) s = .next { s with reply := (
      if data.extractLsb' 16 16 = 0 ∧ payloadByte data = 0 ∧ payloadIndex data < payloadCap s.params reg then
        .value ((memRead (payloadSpace s.block reg) (payloadIndex data)).zeroExtend 32)
      else .refused) } := by
  have hrefused : (payloadCap s.params reg ≤ payloadIndex data || data.extractLsb' 16 16 != 0 ||
      payloadByte data != 0) = true ↔ ¬ (data.extractLsb' 16 16 = 0 ∧ payloadByte data = 0 ∧
        payloadIndex data < payloadCap s.params reg) := by
    simp only [Bool.or_eq_true, decide_eq_true_eq, bne_iff_ne, ← Nat.not_lt]; tauto
  rw [exec, execHRead, if_pos hreg]
  split
  · next h => rw [if_neg (hrefused.1 h)]; rfl
  · next h => rw [if_pos (not_not.1 (mt hrefused.2 h))]; rfl

/-- Any other read answers the register's word, and is refused for an index that is not readable or with a bit of
DATA set (45_host.md R206). -/
theorem exec_hRead_plain {reg : BitVec 7} (hreg : isPayloadReg reg = false) (data : Word) (s : State) :
    exec (.hRead reg data) s = .next { s with reply := (
      if data = 0 ∧ reg ∈ plainReadable then .value (registerWord s.block reg) else .refused) } := by
  have hrefused : (data != 0 || !readableReg reg) = true ↔ ¬ (data = 0 ∧ reg ∈ plainReadable) := by
    have hmem : readableReg reg = true ↔ reg ∈ plainReadable := by
      rw [readableReg_iff_plain_or_payload, hreg]; simp
    rw [← hmem, Bool.or_eq_true, bne_iff_ne, Bool.not_eq_true', ← Bool.not_eq_true]; tauto
  rw [exec, execHRead, if_neg (ne_true_of_eq_false hreg)]
  split
  · next h => rw [if_neg (hrefused.1 h)]; rfl
  · next h => rw [if_pos (not_not.1 (mt hrefused.2 h))]; rfl

/-- Settles O39: the two payload registers by their equation, every other index by the plain one. -/
theorem hostReadReturnsTheRegister : Obligations.HostReadReturnsTheRegister := by
  intro reg data s
  refine ⟨?_, ?_, fun hout hin => ?_⟩
  · rintro rfl
    exact exec_hRead_payload rfl data s
  · rintro rfl
    exact exec_hRead_payload rfl data s
  · have hplain : isPayloadReg reg = false := by
      rw [isPayloadReg, beq_false_of_ne hout, beq_false_of_ne hin]; rfl
    exact exec_hRead_plain hplain data s

/-! ### H_CFG_WRITE -/

/-- A configuration write sets the three bits, or is refused where DATA[31:3] is not 0 (45_host.md R207). -/
theorem exec_hCfgWrite (data : Word) (s : State) : exec (.hCfgWrite data) s = .next (
    if data.toNat < 8 then
      s.accept fun b => { b with hopEn := data[0], cadEn := data[1], xcvrModel := data[2] }
    else s.refuse) := by
  have hhigh := extractLsb'_eq_zero_iff_lt (k := 3) (n := 29) (by decide) data
  rw [exec, execHCfgWrite]
  by_cases hlt : data.toNat < 8
  · rw [if_pos hlt, if_neg (by simpa using hhigh.2 hlt)]
  · rw [if_neg hlt, if_pos (by simpa using mt hhigh.1 hlt)]

/-- Settles O41: the dispatch word copies the bits from the block, which the agents in between do not write. -/
theorem configurationWriteSetsTheThreeBits : Obligations.ConfigurationWriteSetsTheThreeBits := by
  intro data s
  refine ⟨_, exec_hCfgWrite data s, fun hlt => ?_, fun hge => if_neg (Nat.not_lt.2 hge)⟩
  rw [if_pos hlt]
  refine ⟨rfl, fun u hu => ?_⟩
  have hhop : u.invocationDw.hopEn = u.block.hopEn := rfl
  have hcad : u.invocationDw.cadEn = u.block.cadEn := rfl
  rw [hhop, hcad, hu]
  exact ⟨rfl, rfl⟩

/-! ### H_OUT_WRITE -/

/-- DATA fits the outbound metadata register named (45_host.md R208). -/
def fitsOutReg (p : Params) (reg : BitVec 7) (data : Word) : Prop :=
  match reg.toNat with
  | 0x18 => data.toNat ≤ p.outCap
  | 0x1A => data.toNat < 16
  | 0x1B => data.toNat < 256
  | 0x1D => data.toNat < 4
  | _ => True

/-- The block with the outbound metadata register named set to the low bits of DATA (45_host.md R208); an index
that names none leaves it. -/
def setOutReg (reg : BitVec 7) (data : Word) (b : Block) : Block :=
  match reg.toNat with
  | 0x18 => { b with outLen := data.setWidth 16 }
  | 0x19 => { b with outTmst := data }
  | 0x1A => { b with outSf := data.setWidth 4 }
  | 0x1B => { b with outPower := data.setWidth 8 }
  | 0x1C => { b with outFreq := data }
  | 0x1D => { b with outCrc := data.getLsbD 0, outIq := data.getLsbD 1 }
  | _ => b

/-- In Tx the slot is claimed: an outbound write is refused (45_host.md R222). -/
theorem exec_hOutWrite_of_tx {s : State} (htx : s.block.state = stTx) (reg : BitVec 7) (data : Word) :
    exec (.hOutWrite reg data) s = .next s.refuse := by
  rw [exec, execHOutWrite, if_pos (beq_iff_eq.2 htx)]

/-- Outside Tx the register named is set where DATA fits it, and the write is refused otherwise (45_host.md
R208). -/
theorem exec_hOutWrite_of_free {reg : BitVec 7} (hlo : 0x18 ≤ reg.toNat) (hhi : reg.toNat ≤ 0x1D) (data : Word)
    {s : State} (hfree : s.block.state ≠ stTx) :
    (fitsOutReg s.params reg data → exec (.hOutWrite reg data) s = .next (s.accept (setOutReg reg data))) ∧
    (¬ fitsOutReg s.params reg data → exec (.hOutWrite reg data) s = .next s.refuse) := by
  have hsf := extractLsb'_eq_zero_iff_lt (k := 4) (n := 28) (by decide) data
  have hpower := extractLsb'_eq_zero_iff_lt (k := 8) (n := 24) (by decide) data
  have hflags := extractLsb'_eq_zero_iff_lt (k := 2) (n := 30) (by decide) data
  rw [exec, execHOutWrite, if_neg (by rwa [beq_iff_eq])]
  rcases outMeta_cases hlo hhi with rfl | rfl | rfl | rfl | rfl | rfl
  · exact ⟨fun h => if_neg (Nat.not_lt.2 h), fun h => if_pos (Nat.lt_of_not_le h)⟩
  · exact ⟨fun _ => rfl, fun h => absurd trivial h⟩
  · exact ⟨fun h => if_neg (by simpa using hsf.2 h), fun h => if_pos (by simpa using mt hsf.1 h)⟩
  · exact ⟨fun h => if_neg (by simpa using hpower.2 h), fun h => if_pos (by simpa using mt hpower.1 h)⟩
  · exact ⟨fun _ => rfl, fun h => absurd trivial h⟩
  · exact ⟨fun h => if_neg (by simpa using hflags.2 h), fun h => if_pos (by simpa using mt hflags.1 h)⟩

/-- Settles O42: R208's conditions are the claim on the slot and DATA's fit in the register named. -/
theorem outboundWriteSetsOneRegister : Obligations.OutboundWriteSetsOneRegister := by
  intro reg data s hlo hhi
  by_cases htx : s.block.state = stTx
  · exact ⟨_, exec_hOutWrite_of_tx htx reg data, fun _ => rfl, fun hfree => absurd htx hfree⟩
  · obtain ⟨haccept, hrefuse⟩ := exec_hOutWrite_of_free hlo hhi data htx
    obtain ⟨t, ht⟩ := exec_host_next (i := .hOutWrite reg data) rfl s
    have hset (h : fitsOutReg s.params reg data) : t = s.accept (setOutReg reg data) :=
      Host.Outcome.next.inj (ht.symm.trans (haccept h))
    have hrefused (h : ¬ fitsOutReg s.params reg data) : t = s.refuse :=
      Host.Outcome.next.inj (ht.symm.trans (hrefuse h))
    refine ⟨t, ht, ?_, fun _ => ⟨?_, ?_, ?_, ?_, ?_, ?_⟩⟩
    · rintro (h | ⟨rfl, h⟩ | ⟨rfl, h⟩ | ⟨rfl, h⟩ | ⟨rfl, h⟩)
      · exact absurd h htx
      · exact hrefused (Nat.not_le.2 h)
      all_goals exact hrefused (Nat.not_lt.2 h)
    · rintro rfl hfit; exact hset hfit
    · rintro rfl; exact hset trivial
    · rintro rfl hfit; exact hset hfit
    · rintro rfl hfit; exact hset hfit
    · rintro rfl; exact hset trivial
    · rintro rfl hfit; exact hset hfit

/-! ### H_OUT_PAYLOAD_WRITE -/

/-- A payload write sets one byte of OUT_BUF, and is refused in Tx, outside the space or with another bit set
(45_host.md R209, R222). -/
theorem exec_hOutPayloadWrite (data : Word) (s : State) : exec (.hOutPayloadWrite data) s = .next (
    if s.block.state = stTx ∨ data.extractLsb' 16 16 ≠ 0 ∨ s.params.outCap ≤ payloadIndex data then s.refuse
    else s.accept fun b => { b with outBuf := memWrite b.outBuf (payloadIndex data) (payloadByte data) }) := by
  simp only [exec, execHOutPayloadWrite, beq_iff_eq, Bool.or_eq_true, bne_iff_ne, decide_eq_true_eq]
  by_cases htx : s.block.state = stTx
  · rw [if_pos htx, if_pos (.inl htx)]
  · rw [if_neg htx]
    simp only [htx, false_or]
    split <;> rfl

/-- Settles O43: the write is `memWrite`, whose reads `memRead_memWrite` gives. -/
theorem payloadWriteSetsOneByte : Obligations.PayloadWriteSetsOneByte := by
  intro data s hwf
  refine ⟨_, exec_hOutPayloadWrite data s, fun hfree hhigh hlt => ?_, fun href => if_pos href⟩
  have hok : ¬ (s.block.state = stTx ∨ data.extractLsb' 16 16 ≠ 0 ∨ s.params.outCap ≤ payloadIndex data) := by
    rintro (h | h | h)
    · exact hfree h
    · exact h hhigh
    · exact Nat.not_le.2 hlt h
  rw [if_neg hok]
  refine ⟨memWrite s.block.outBuf (payloadIndex data) (payloadByte data), rfl, fun j => ?_⟩
  rw [memRead_memWrite hwf]
  exact if_congr eq_comm rfl rfl

/-! ### H_TX_REQUEST -/

/-- Settles O44: the request's one test is R211's. -/
theorem txRequestClaimsTheSlot : Obligations.TxRequestClaimsTheSlot := by
  intro s
  simp only [exec, execHTxRequest, beq_iff_eq]
  split <;> rfl

/-! ### Refusals -/

/-- What a host transaction or the reset signal answers: a refusal, a value, a write of the block, or, for RESET,
no reply at all (45_host.md R206 to R213). -/
theorem exec_host_answers {i : Instr} (hi : i.dw? = none) {s t : State} (h : exec i s = .next t) :
    t = s.refuse ∨ (∃ w, t.reply = .value w) ∨ t.reply = .accepted ∨ t.reply = s.reply := by
  cases i with
  | hRead | hCfgWrite | hOutWrite | hOutPayloadWrite | hTxRequest =>
    simp only [exec, execHRead, execHCfgWrite, execHOutWrite, execHOutPayloadWrite, execHTxRequest] at h
    repeat' split at h
    all_goals cases h; simp
  | reset => cases h; simp
  | _ => cases hi

/-- Settles O46: a recorded refusal is the one answer that writes nothing; in Tx each outbound transaction gives
it. -/
theorem refusedTransactionsHaveNoEffect : Obligations.RefusedTransactionsHaveNoEffect := by
  refine ⟨fun i s t hi hfresh h href => ?_, fun reg data s htx => ⟨exec_hOutWrite_of_tx htx reg data, ?_, ?_⟩⟩
  · rcases exec_host_answers hi h with heq | ⟨w, hreply⟩ | hreply | hreply
    · exact heq
    all_goals simp [href, hfresh] at hreply
  · rw [exec_hOutPayloadWrite, if_pos (.inl htx)]; rfl
  · rw [txRequestClaimsTheSlot, if_pos htx]

/-! ### The step that takes a host word -/

theorem hostStep_of_ok {w : BitVec 40} {i : Instr} (h : decodeHost w = .ok i) (s : State) :
    s.hostStep w = exec i s.startStep := by
  rw [State.hostStep, h]

/-- A host word that names no transaction is refused on a fresh action list (45_host.md R212). -/
theorem hostStep_of_error {w : BitVec 40} {e : DecodeError} (h : decodeHost w = .error e) (s : State) :
    s.hostStep w = .next s.startStep.refuse := by
  rw [State.hostStep, h]

/-- Settles O6: the step of a script's host word is `hostStep`. -/
theorem stepRunsTheHostTransaction : Obligations.StepRunsTheHostTransaction := by
  intro s w rest hscript
  rw [step_of_script hscript]
  exact ⟨fun _ hok => hostStep_of_ok hok _, fun _ herr => hostStep_of_error herr _⟩

end Sys2Proof.Machine
end
